-- ==== Sys2Proof/Word.lean ====
section
/-! DEFINITION. The bit vectors of the block, at the widths spec/ gives them (00_scope R11: every quantity is an
unsigned integer of a stated width; there is no signed quantity). -/

namespace Sys2Proof

/-- Eight bits: a GPIO line identifier (10_state R21), a bus byte (43_bus R180), an 8-bit operand (30_encoding R84). -/
abbrev Byte := BitVec 8

/-- One framebuffer entry, the 16 pixels of a page (10_state R31), and every other 16-bit value. -/
abbrev Page := BitVec 16

/-- The index of a framebuffer entry, 0..511: nine bits hold exactly these (20_memory R50, 41_translator R131). -/
abbrev EntryIndex := BitVec 9

/-- A command word W (30_encoding R80). -/
abbrev CommandWord := BitVec 40

/-- A response word R (30_encoding R82). -/
abbrev ResponseWord := BitVec 20

end Sys2Proof
end

