-- ==== Sys2Proof/Syntax.lean ====
section
/-! DEFINITION. The commands of the block: one constructor for each row of spec/opcode_table.json (30_encoding R83), with
the operands of its format (R81) as R84 assembles them. -/

namespace Sys2Proof

/-- A command. Operands stand in the order A, B, V (30_encoding R89); a one-bit operand V[0] is a `Bool`, 1 meaning true
(R84). -/
inductive Instr where
  /-- SETPIN slot, id (40_config R110). -/
  | setpin (slot id : Byte)
  /-- BEGIN (40_config R111). -/
  | begin
  /-- GFXEN on (40_config R112). -/
  | gfxen (on : Bool)
  /-- GETST (40_config R113). -/
  | getst
  /-- SETPX cx, cy, lit (42_framebuffer R150). -/
  | setpx (cx cy : Byte) (lit : Bool)
  /-- GETPX cx, cy (42_framebuffer R151). -/
  | getpx (cx cy : Byte)
  /-- TGLPX cx, cy (42_framebuffer R152). -/
  | tglpx (cx cy : Byte)
  /-- SETPG page, cy, value (42_framebuffer R153). -/
  | setpg (page cy : Byte) (value : Page)
  /-- GETPG page, cy (42_framebuffer R154). -/
  | getpg (page cy : Byte)
  /-- TGLPG page, cy, xorMask (42_framebuffer R155). -/
  | tglpg (page cy : Byte) (xorMask : Page)
  /-- SETALL lit (42_framebuffer R156). -/
  | setall (lit : Bool)
  /-- TGLALL (42_framebuffer R157). -/
  | tglall
  /-- PNTPG page, cy (44_paint R200). -/
  | pntpg (page cy : Byte)
  /-- PNTALL (44_paint R201). -/
  | pntall
  /-- PNTPX cx, cy (44_paint R202). -/
  | pntpx (cx cy : Byte)
  /-- SETTC cx, cy (45_text R220). -/
  | settc (cx cy : Byte)
  /-- SETWTC cx, cy (45_text R221). -/
  | setwtc (cx cy : Byte)
  /-- PRTC c (45_text R222). -/
  | prtc (c : Byte)
  /-- PRTW w (45_text R223). -/
  | prtw (w : Page)
  /-- FILLC c (45_text R224). -/
  | fillc (c : Byte)
  /-- FILLW w (45_text R225). -/
  | fillw (w : Page)
  deriving DecidableEq, Repr

end Sys2Proof
end

