-- ==== Sys2Proof/WellFormed.lean ====
section
/-! DEFINITION. Which commands a legal word can spell: the one check on an operand's value that decoding makes
(30_encoding R85 (c), R86). Every other operand may take every value of its field (R84). -/

namespace Sys2Proof

/-- A SETPIN's slot is at most 10; nothing else is restricted (30_encoding R85, 40_config R110). -/
def Instr.wellFormed : Instr → Bool
  | .setpin slot _ => decide (slot.toNat ≤ 10)
  | .begin => true
  | .gfxen _ => true
  | .getst => true
  | .setpx _ _ _ => true
  | .getpx _ _ => true
  | .tglpx _ _ => true
  | .setpg _ _ _ => true
  | .getpg _ _ => true
  | .tglpg _ _ _ => true
  | .setall _ => true
  | .tglall => true
  | .pntpg _ _ => true
  | .pntall => true
  | .pntpx _ _ => true
  | .settc _ _ => true
  | .setwtc _ _ => true
  | .prtc _ => true
  | .prtw _ => true
  | .fillc _ => true
  | .fillw _ => true

end Sys2Proof
end

