-- ==== Sys2Proof/Decode.lean ====
section
/-! DEFINITION. The command decoder, total on every 40-bit word and rejecting by name (30_encoding R80 to R87), and after
it the encoder written from the same table. -/

namespace Sys2Proof

/-- The twenty-one mnemonics of 30_encoding R83, as the opcode table names them. -/
inductive Mnemonic where
  | SETPIN | BEGIN | GFXEN | GETST
  | SETPX | GETPX | TGLPX | SETPG | GETPG | TGLPG | SETALL | TGLALL
  | PNTPG | PNTALL | PNTPX
  | SETTC | SETWTC | PRTC | PRTW | FILLC | FILLW
  deriving DecidableEq, Repr

/-- Why a word is illegal (30_encoding R85); each of them is the failure IllegalCommand. -/
inductive DecodeError where
  /-- (a) OP is not one of the 21 listed values. -/
  | unlistedOpcode (op : Byte)
  /-- (b) a field that the format requires to be zero is not zero. -/
  | nonzeroField (m : Mnemonic)
  /-- (c) a SETPIN whose slot is greater than 10. -/
  | slotOutOfRange (slot : Byte)
  deriving DecidableEq, Repr

/-- One row of the opcode map (30_encoding R83): a word spells the command when `(W AND mask) = match`. -/
structure OpcodeRow where
  mnemonic : Mnemonic
  op : Byte
  matchBits : CommandWord
  mask : CommandWord
  deriving DecidableEq, Repr

/-- The opcode map, transcribed from 30_encoding R83: configuration, framebuffer. -/
def opcodeTableLow : List OpcodeRow :=
  [ ⟨.SETPIN, 0x01, 0x0100000000, 0xFF0000FFFF⟩,
    ⟨.BEGIN, 0x02, 0x0200000000, 0xFFFFFFFFFF⟩,
    ⟨.GFXEN, 0x03, 0x0300000000, 0xFFFFFFFFFE⟩,
    ⟨.GETST, 0x04, 0x0400000000, 0xFFFFFFFFFF⟩,
    ⟨.SETPX, 0x10, 0x1000000000, 0xFF0000FFFE⟩,
    ⟨.GETPX, 0x11, 0x1100000000, 0xFF0000FFFF⟩,
    ⟨.TGLPX, 0x12, 0x1200000000, 0xFF0000FFFF⟩,
    ⟨.SETPG, 0x13, 0x1300000000, 0xFF00000000⟩,
    ⟨.GETPG, 0x14, 0x1400000000, 0xFF0000FFFF⟩,
    ⟨.TGLPG, 0x15, 0x1500000000, 0xFF00000000⟩,
    ⟨.SETALL, 0x16, 0x1600000000, 0xFFFFFFFFFE⟩,
    ⟨.TGLALL, 0x17, 0x1700000000, 0xFFFFFFFFFF⟩ ]

/-- The opcode map, transcribed from 30_encoding R83: paint, text. -/
def opcodeTableHigh : List OpcodeRow :=
  [ ⟨.PNTPG, 0x20, 0x2000000000, 0xFF0000FFFF⟩,
    ⟨.PNTALL, 0x21, 0x2100000000, 0xFFFFFFFFFF⟩,
    ⟨.PNTPX, 0x22, 0x2200000000, 0xFF0000FFFF⟩,
    ⟨.SETTC, 0x40, 0x4000000000, 0xFF0000FFFF⟩,
    ⟨.SETWTC, 0x41, 0x4100000000, 0xFF0000FFFF⟩,
    ⟨.PRTC, 0x42, 0x4200000000, 0xFFFFFFFF00⟩,
    ⟨.PRTW, 0x43, 0x4300000000, 0xFFFFFF0000⟩,
    ⟨.FILLC, 0x44, 0x4400000000, 0xFFFFFFFF00⟩,
    ⟨.FILLW, 0x45, 0x4500000000, 0xFFFFFF0000⟩ ]

/-- The complete set of commands (30_encoding R83). -/
def opcodeTable : List OpcodeRow := opcodeTableLow ++ opcodeTableHigh

/-- OP = W[39:32] (30_encoding R80). -/
def fieldOP (w : CommandWord) : Byte := w.extractLsb' 32 8

/-- A = W[31:24] (30_encoding R80). -/
def fieldA (w : CommandWord) : Byte := w.extractLsb' 24 8

/-- B = W[23:16] (30_encoding R80). -/
def fieldB (w : CommandWord) : Byte := w.extractLsb' 16 8

/-- V = W[15:0] (30_encoding R80). -/
def fieldV (w : CommandWord) : Page := w.extractLsb' 0 16

/-- The operands of a command whose format has matched, extracted as 30_encoding R84 says; SETPIN's slot is checked
here (R86). -/
def assemble (m : Mnemonic) (a b : Byte) (v : Page) : Except DecodeError Instr :=
  match m with
  | .SETPIN => if a.toNat ≤ 10 then .ok (.setpin a b) else .error (.slotOutOfRange a)
  | .BEGIN => .ok .begin
  | .GFXEN => .ok (.gfxen (v.getLsbD 0))
  | .GETST => .ok .getst
  | .SETPX => .ok (.setpx a b (v.getLsbD 0))
  | .GETPX => .ok (.getpx a b)
  | .TGLPX => .ok (.tglpx a b)
  | .SETPG => .ok (.setpg a b v)
  | .GETPG => .ok (.getpg a b)
  | .TGLPG => .ok (.tglpg a b v)
  | .SETALL => .ok (.setall (v.getLsbD 0))
  | .TGLALL => .ok .tglall
  | .PNTPG => .ok (.pntpg a b)
  | .PNTALL => .ok .pntall
  | .PNTPX => .ok (.pntpx a b)
  | .SETTC => .ok (.settc a b)
  | .SETWTC => .ok (.setwtc a b)
  | .PRTC => .ok (.prtc (v.setWidth 8))
  | .PRTW => .ok (.prtw v)
  | .FILLC => .ok (.fillc (v.setWidth 8))
  | .FILLW => .ok (.fillw v)

/-- The row whose OP a word holds, if there is one (30_encoding R86, first step). -/
def findRow (w : CommandWord) : Option OpcodeRow := opcodeTable.find? fun r => r.op == fieldOP w

/-- The decoder, in the order of 30_encoding R86: look OP up; check `(W AND mask) = match`; extract the operands. -/
def decode (w : CommandWord) : Except DecodeError Instr :=
  match findRow w with
  | none => .error (.unlistedOpcode (fieldOP w))
  | some r =>
    if w &&& r.mask = r.matchBits then assemble r.mnemonic (fieldA w) (fieldB w) (fieldV w)
    else .error (.nonzeroField r.mnemonic)

/-- The instruction read from a command whose bits are `w`, numbered as spec/opcode_table.json numbers them: one 40-bit
word, bit 0 its least significant (30_encoding R80, R87). Bits at or above `nbits` are zero; a number that does not fit
the 40 bits of a command is none. -/
def decodeTableWord (nbits w : Nat) : Option Instr :=
  if w % 2 ^ nbits < 2 ^ 40 then
    match decode (BitVec.ofNat 40 (w % 2 ^ nbits)) with
    | .ok i => some i
    | .error _ => none
  else none

/-- The word with the four fields given (30_encoding R80). -/
def packWord (op a b : Byte) (v : Page) : CommandWord := (op ++ a ++ b ++ v : BitVec (8 + 8 + 8 + 16))

/-- A one-bit operand in V[0], with V[15:1] zero (30_encoding R81, formats CL and L). -/
def flagField (f : Bool) : Page := if f then 1 else 0

/-- The word of a command, written from 30_encoding R81 and R83: the operand fields of its format, every other field
zero. -/
def encode : Instr → CommandWord
  | .setpin slot id => packWord 0x01 slot id 0
  | .begin => packWord 0x02 0 0 0
  | .gfxen on => packWord 0x03 0 0 (flagField on)
  | .getst => packWord 0x04 0 0 0
  | .setpx cx cy lit => packWord 0x10 cx cy (flagField lit)
  | .getpx cx cy => packWord 0x11 cx cy 0
  | .tglpx cx cy => packWord 0x12 cx cy 0
  | .setpg page cy value => packWord 0x13 page cy value
  | .getpg page cy => packWord 0x14 page cy 0
  | .tglpg page cy xorMask => packWord 0x15 page cy xorMask
  | .setall lit => packWord 0x16 0 0 (flagField lit)
  | .tglall => packWord 0x17 0 0 0
  | .pntpg page cy => packWord 0x20 page cy 0
  | .pntall => packWord 0x21 0 0 0
  | .pntpx cx cy => packWord 0x22 cx cy 0
  | .settc cx cy => packWord 0x40 cx cy 0
  | .setwtc cx cy => packWord 0x41 cx cy 0
  | .prtc c => packWord 0x42 0 0 (c.setWidth 16)
  | .prtw w => packWord 0x43 0 0 w
  | .fillc c => packWord 0x44 0 0 (c.setWidth 16)
  | .fillw w => packWord 0x45 0 0 w

/-- The mnemonic of a command (30_encoding R83). -/
def Instr.mnemonic : Instr → Mnemonic
  | .setpin _ _ => .SETPIN
  | .begin => .BEGIN
  | .gfxen _ => .GFXEN
  | .getst => .GETST
  | .setpx _ _ _ => .SETPX
  | .getpx _ _ => .GETPX
  | .tglpx _ _ => .TGLPX
  | .setpg _ _ _ => .SETPG
  | .getpg _ _ => .GETPG
  | .tglpg _ _ _ => .TGLPG
  | .setall _ => .SETALL
  | .tglall => .TGLALL
  | .pntpg _ _ => .PNTPG
  | .pntall => .PNTALL
  | .pntpx _ _ => .PNTPX
  | .settc _ _ => .SETTC
  | .setwtc _ _ => .SETWTC
  | .prtc _ => .PRTC
  | .prtw _ => .PRTW
  | .fillc _ => .FILLC
  | .fillw _ => .FILLW

end Sys2Proof
end

