-- ==== Sys2Proof/Config.lean ====
section
/-! DEFINITION. What an implementation fixes: the parameters of 00_scope R10 with their constraints, and the free values
of the model (the parameters of the chip at hand, and what the framebuffer holds after reset). -/

namespace Sys2Proof

/-- The parameters of 00_scope R10, one field for each row; a model "takes each as an argument (a configuration field)".
HOME_CMD is a function of which the source fixes the values at 0 and 1, so only the values at 2 and 3 stand here. -/
structure Config where
  /-- T_SETTLE, in microseconds. -/
  tSettle : Nat
  /-- T_CMD_SHORT, in microseconds. -/
  tCmdShort : Nat
  /-- T_CMD_LONG, in microseconds. -/
  tCmdLong : Nat
  /-- CMD_BASIC. -/
  cmdBasic : Byte
  /-- CMD_EXTENDED. -/
  cmdExtended : Byte
  /-- GFX_BIT. -/
  gfxBit : Byte
  /-- ADDR_FLAG. -/
  addrFlag : Byte
  /-- CMD_CURSOR_RIGHT. -/
  cmdCursorRight : Byte
  /-- CHAR_SPACE. -/
  charSpace : Byte
  /-- FILL_NARROW. -/
  fillNarrow : Nat
  /-- FILL_WIDE. -/
  fillWide : Nat
  /-- HOME_CMD(2). -/
  homeCmd2 : Byte
  /-- HOME_CMD(3). -/
  homeCmd3 : Byte
  /-- DATA_LINE_ORDER: the order in which the eight data lines are written (43_bus R180). -/
  dataLineOrder : List (Fin 8)
  /-- PINMODE_ORDER: the order in which BEGIN sets the ten line directions (40_config R111). -/
  pinmodeOrder : List (Fin 10)
  deriving DecidableEq, Repr, Inhabited

/-- DATA_LINE_ORDER as the source lists it, bit 7 first (00_scope R10). -/
def Config.listedDataLineOrder : List (Fin 8) := [7, 6, 5, 4, 3, 2, 1, 0]

/-- PINMODE_ORDER in ascending slot number (00_scope R10). -/
def Config.listedPinmodeOrder : List (Fin 10) := [0, 1, 2, 3, 4, 5, 6, 7, 8, 9]

/-- A byte with exactly one bit set. -/
def Config.oneBit (b : Byte) : Bool := (List.range 8).any fun k => b == 1#8 <<< k

/-- The constraints column of 00_scope R10, row by row. ADDR_FLAG has exactly one bit set and that is bit 7. -/
def Config.wf (c : Config) : Bool :=
  decide (0 < c.tSettle) && decide (0 < c.tCmdShort) && decide (0 < c.tCmdLong) && decide (c.tCmdShort ≤ c.tCmdLong)
    && decide (c.cmdBasic ≠ c.cmdExtended) && Config.oneBit c.gfxBit && decide (c.cmdExtended &&& c.gfxBit = 0#8)
    && decide (c.addrFlag = 0x80#8) && decide (c.fillNarrow = 2 * c.fillWide)
    && c.dataLineOrder.isPerm Config.listedDataLineOrder && c.pinmodeOrder.isPerm Config.listedPinmodeOrder

/-- The defaults column of 00_scope R10 (five bytes of it from general knowledge, 93_implementation_defined G1 to G5). The
five parameters that have no default are arguments. Used by tests, and by `Config.chip` only where `Config.free` breaks a
constraint; PRESUMED, log entry 1. -/
def Config.defaults (tSettle tCmdShort tCmdLong : Nat) (home2 home3 : Byte) : Config where
  tSettle := tSettle
  tCmdShort := tCmdShort
  tCmdLong := tCmdLong
  cmdBasic := 0x30
  cmdExtended := 0x34
  gfxBit := 0x02
  addrFlag := 0x80
  cmdCursorRight := 0x14
  charSpace := 0x20
  fillNarrow := 32
  fillWide := 16
  homeCmd2 := home2
  homeCmd3 := home3
  dataLineOrder := Config.listedDataLineOrder
  pinmodeOrder := Config.listedPinmodeOrder

/-- FREE VALUE (log entry 1): the parameters of the chip at hand, nothing known of them. -/
opaque Config.free : Config

/-- The parameters of the chip at hand: any that meet the constraints of 00_scope R10. Every such `Config` is a possible
value of `Config.free`, so nothing but the constraints can be proved of this one. DESIGN CHOICE, safe: log entry 1. -/
def Config.chip : Config :=
  if Config.free.wf then Config.free else Config.defaults 1 1 1 0 0

/-- FREE VALUE (log entry 2): what entry `i` of the framebuffer holds after reset, "an arbitrary 16-bit value that does
not change until the entry is written" (10_state R33). DESIGN CHOICE, safe. -/
opaque Config.fbReset : Nat → Page

end Sys2Proof
end

