-- ==== Sys2Proof/Machine/State.lean ====
section
/-! DEFINITION. The state of the block as plain data: the five elements of 10_state R20, its outputs (10_state R32,
70_reset R303), the host's remaining commands (00_scope R7) and the implementation parameters (00_scope R10); reset
(10_state R33). -/

namespace Sys2Proof.Machine

/-- The driver status (10_state R24). -/
inductive Status where
  | uninitialized
  | initialized
  /-- Encodable and never entered (90_conflicts C8). -/
  | error
  deriving DecidableEq, Repr

/-- The instruction-mode shadow (10_state R29). -/
inductive IMode where
  | unknown
  | basic
  | extended
  deriving DecidableEq, Repr

/-- The three delays, kept symbolic (10_state R32, 70_reset R301). -/
inductive Delay where
  /-- T_SETTLE. -/
  | settle
  /-- T_CMD_SHORT. -/
  | cmdShort
  /-- T_CMD_LONG. -/
  | cmdLong
  deriving DecidableEq, Repr

/-- The one direction the block ever sets (00_scope R8). -/
inductive Direction where
  | output
  deriving DecidableEq, Repr

/-- One call of a GPIO primitive (00_scope R8, 10_state R32). -/
inductive Event where
  /-- `setPinMode(p, OUTPUT)`. -/
  | setPinMode (p : Byte) (dir : Direction)
  /-- `writePin(p, l)`: the level is one bit, `true` high. -/
  | writePin (p : Byte) (level : Bool)
  /-- `sleepMicros(d)`. -/
  | sleepMicros (d : Delay)
  deriving DecidableEq, Repr

/-- The causes of a failure (60_exceptions R251). -/
inductive Cause where
  | notInitialized
  | invalidPinConfig
  | outOfRange
  | illegalCommand
  deriving DecidableEq, Repr

/-- Why the machine has no next step. A command's failure is none of these: it is a next state with a response
(60_exceptions R250). -/
inductive Fault where
  /-- Raised by `step` when the host presents no command: "The block takes no step except while executing a command"
  (00_scope R6). SAFE: the model stops where the block is idle. Log entry 5. -/
  | noCommand
  deriving DecidableEq, Repr

/-- Why an instruction has no meaning. -/
inductive Refusal where
  /-- Raised by an arm of `exec` whose instruction has no meaning yet; no arm does. SAFE: nothing is claimed of it. -/
  | notModelled (mnemonic : String)
  deriving DecidableEq, Repr

/-- The state. No step reads `trace` or `responses`, and no step writes `cfg`. -/
structure State where
  /-- The implementation parameters: the model's own field (log entry 1). -/
  cfg : Config
  /-- `PIN[0..10]` (10_state R21). -/
  pins : Vector Byte 11
  /-- `status` (10_state R24). -/
  status : Status
  /-- `gfx_en` (10_state R28). -/
  gfxEn : Bool
  /-- `imode` (10_state R29). -/
  imode : IMode
  /-- `FB[0..511]` (10_state R31, 20_memory R50). -/
  fb : Vector Page 512
  /-- The GPIO event trace since reset, oldest first (10_state R32). -/
  trace : List Event
  /-- The responses returned since reset, oldest first (70_reset R303). -/
  responses : List ResponseWord
  /-- The commands the host has still to present, next first (00_scope R7): the model's own field (log entry 5). -/
  commands : List CommandWord
  deriving DecidableEq, Repr

/-- The state right after reset, for a chip with parameters `cfg` and a framebuffer that happens to hold `fb`
(10_state R33, 70_reset R280): "A model must quantify over every initial FB content". -/
def State.resetWith (cfg : Config) (fb : Vector Page 512) : State where
  cfg := cfg
  pins := Vector.replicate 11 0xFF#8
  status := .uninitialized
  gfxEn := false
  imode := .unknown
  fb := fb
  trace := []
  responses := []
  commands := []

/-- The state right after reset: the parameters of the chip at hand and an arbitrary framebuffer, both free values
(log entries 1 and 2). -/
def State.reset : State := State.resetWith Config.chip (Vector.ofFn fun i => Config.fbReset i.val)

end Sys2Proof.Machine
end

