-- ==== Sys2Proof/Machine/Flags.lean ====
section
/-! DEFINITION. The flags `status`, `gfx_en`, `imode`: their codes and their writers (10_state R24, R28, R29), the cause
codes (60_exceptions R251) and the fields of the response word (30_encoding R82). -/

namespace Sys2Proof.Machine

/-- The encoding of `status` in the GETST response (10_state R24). -/
def Status.code : Status → BitVec 2
  | .uninitialized => 0
  | .initialized => 1
  | .error => 2

/-- `status <- v`. -/
def setStatus (v : Status) (s : State) : State := { s with status := v }

/-- `gfx_en <- v`. -/
def setGfxEn (v : Bool) (s : State) : State := { s with gfxEn := v }

/-- `imode <- v`. -/
def setIMode (v : IMode) (s : State) : State := { s with imode := v }

/-- The cause codes (60_exceptions R251). -/
def Cause.code : Cause → BitVec 3
  | .notInitialized => 1
  | .invalidPinConfig => 2
  | .outOfRange => 3
  | .illegalCommand => 4

/-- The response word with the three fields given: FAIL R[19], CAUSE R[18:16], VALUE R[15:0] (30_encoding R82). -/
def responseWord (failBit : BitVec 1) (cause : BitVec 3) (value : Page) : ResponseWord :=
  (failBit ++ cause ++ value : BitVec (1 + 3 + 16))

/-- The response of success with a value: FAIL = 0, CAUSE = 0 (00_scope R12). -/
def okWord (value : Page) : ResponseWord := responseWord 0 0 value

/-- The response of a failure: FAIL = 1, the cause's code, VALUE = 0 (60_exceptions R250). -/
def failWord (c : Cause) : ResponseWord := responseWord 1 c.code 0

/-- FAIL = R[19] (30_encoding R82). -/
def fieldFAIL (r : ResponseWord) : Bool := r.getLsbD 19

/-- CAUSE = R[18:16] (30_encoding R82). -/
def fieldCAUSE (r : ResponseWord) : BitVec 3 := r.extractLsb' 16 3

/-- VALUE = R[15:0] (30_encoding R82). -/
def fieldVALUE (r : ResponseWord) : Page := r.extractLsb' 0 16

end Sys2Proof.Machine
end

