-- ==== Sys2Proof/Machine/Ops.lean ====
section
/-! DEFINITION. The named operations over the state: pin slots, framebuffer entries, the event trace, the responses; a
failure, the block's only exceptional outcome, as one shared operation (60_exceptions R250); the gate (10_state R25); the
host port (00_scope R7). There is no return from a failure and nothing to restore (60_exceptions R255). -/

namespace Sys2Proof.Machine

/-- What a command gives: one of the host's three outcomes. -/
abbrev Result := Host.Outcome State Fault Refusal

/-! ### Pin configuration -/

/-- `PIN[k]` (00_scope R12). -/
def pin (s : State) (k : Fin 11) : Byte := s.pins[k]

/-- `PIN[k] <- id` (00_scope R12). -/
def setPin (k : Fin 11) (id : Byte) (s : State) : State := { s with pins := s.pins.set k.val id k.isLt }

/-- The slot of the register-select line (10_state R21). -/
def slotRS : Fin 11 := 8

/-- The slot of the enable line (10_state R21). -/
def slotE : Fin 11 := 9

/-- The slot of data line `k` (10_state R21). -/
def slotD (k : Fin 8) : Fin 11 := ⟨k.val, by omega⟩

/-- One of the ten slots that BEGIN requires (10_state R22). -/
def requiredSlot (k : Fin 10) : Fin 11 := ⟨k.val, by omega⟩

/-- A pin identifier is valid when its bit 7 is 0, and unset otherwise (10_state R22, 90_conflicts C10). -/
def pinValid (id : Byte) : Bool := !id.getLsbD 7

/-- Every `PIN[k]`, k in 0..9, is valid; slot 10 is not examined (40_config R111). -/
def requiredPinsValid (s : State) : Bool :=
  (List.finRange 10).all fun k => pinValid (pin s (requiredSlot k))

/-! ### Framebuffer -/

/-- `FB[i]`, also written `MemRead(i, 16)` (20_memory R50). -/
def fbRead (s : State) (i : EntryIndex) : Page := s.fb[i.toNat]

/-- `FB[i] <- v`, also written `MemWrite(i, 16, v)` (20_memory R50). -/
def fbWrite (i : EntryIndex) (v : Page) (s : State) : State := { s with fb := s.fb.set i.toNat v }

/-- `FB[i] <- v` for every i in 0..511 (42_framebuffer R156). -/
def fbFill (v : Page) (s : State) : State := { s with fb := Vector.replicate 512 v }

/-- `FB[i] <- NOT FB[i]` for every i in 0..511 (42_framebuffer R157). -/
def fbComplement (s : State) : State := { s with fb := s.fb.map fun v => ~~~v }

/-- The framebuffer written out as cells, an entry index and its value, in rising order. The form of `State.fb` is one
value for each index 0..511, so equal memories are equal data; this is the view in which a memory is written down. -/
def fbCells (s : State) : List (Nat × Page) := (List.range 512).zip s.fb.toList

/-- The canonical form of a memory written as cells: the indices 0..511, each once, strictly rising, none missing
(20_memory R50, R56). -/
def Memory.wf (m : List (Nat × Page)) : Bool := m.map Prod.fst == List.range 512

/-! ### Outputs -/

/-- `emit`: appends events to the GPIO event trace (00_scope R12, 10_state R32). -/
def emit (es : List Event) (s : State) : State := { s with trace := s.trace ++ es }

/-- Returns one response word to the host (00_scope R7). -/
def respond (r : ResponseWord) (s : State) : State := { s with responses := s.responses ++ [r] }

/-- `respond ok(v)` (00_scope R12). -/
def respondOk (v : Page) (s : State) : Result := .next (respond (okWord v) s)

/-- `raise Fail(cause)`: the block's only exceptional outcome. No state element changes, no event is emitted, and the
response is FAIL = 1, CAUSE, VALUE = 0 (60_exceptions R250, R255). -/
def raiseFail (c : Cause) (s : State) : Result := .next (respond (failWord c) s)

/-- `require Initialized` (10_state R25). -/
def requireInitialized (s : State) (body : Result) : Result :=
  if s.status = .initialized then body else raiseFail .notInitialized s

/-- `let x = translation else raise Fail(OutOfRange)` (00_scope R12, 20_memory R57). -/
def translated {α : Type} (t : Option α) (s : State) (body : α → Result) : Result :=
  match t with
  | none => raiseFail .outOfRange s
  | some x => body x

/-- The level of a line: the level of the latest `writePin` to its identifier, undefined before the first (10_state
R32). -/
def lineLevel (p : Byte) (trace : List Event) : Option Bool :=
  trace.foldl (fun acc e =>
    match e with
    | .writePin q l => if q = p then some l else acc
    | .setPinMode _ _ => acc
    | .sleepMicros _ => acc) none

/-- The direction of a line: that of the latest `setPinMode` to its identifier, undefined before the first
(93_implementation_defined U16). -/
def lineDirection (p : Byte) (trace : List Event) : Option Direction :=
  trace.foldl (fun acc e =>
    match e with
    | .setPinMode q d => if q = p then some d else acc
    | .writePin _ _ => acc
    | .sleepMicros _ => acc) none

/-! ### Host port and reset -/

/-- The command the host presents now, and the state with it taken from the port (00_scope R7). -/
def takeCommand (s : State) : Option (CommandWord × State) :=
  match s.commands with
  | [] => none
  | w :: rest => some (w, { s with commands := rest })

/-- The host's commands of a run (70_reset R303): presented after those it has still to present. -/
def present (ws : List CommandWord) (s : State) : State := { s with commands := s.commands ++ ws }

/-- `s` with one command word placed where the next step takes its command. -/
def placeCommand (w : CommandWord) (s : State) : State := { s with commands := w :: s.commands }

/-- Reset as a platform event on the same chip, after which the framebuffer holds an arbitrary `fb` (70_reset R280); a
power cycle is treated as reset (93_implementation_defined U20). -/
def platformReset (fb : Vector Page 512) (s : State) : State := State.resetWith s.cfg fb

end Sys2Proof.Machine
end

