-- ==== Sys2Proof/Machine/Configuration.lean ====
section
/-! DEFINITION. SETPIN, BEGIN, GFXEN, GETST (40_config). -/

namespace Sys2Proof.Machine

/-- SETPIN (40_config R110). A slot above 10 is no pin: IllegalCommand (30_encoding R85). -/
def execSetpin (slot id : Byte) (s : State) : Result :=
  if h : slot.toNat ≤ 10 then
    respondOk 0 (setIMode .unknown (setStatus .uninitialized (setPin ⟨slot.toNat, by omega⟩ id s)))
  else raiseFail .illegalCommand s

/-- The ten `setPinMode` events of a successful BEGIN, in PINMODE_ORDER (40_config R111). -/
def beginEvents (s : State) : List Event :=
  s.cfg.pinmodeOrder.map fun k => .setPinMode (pin s (requiredSlot k)) .output

/-- BEGIN (40_config R111): the whole check stands before the first event. -/
def execBegin (s : State) : Result :=
  if requiredPinsValid s then respondOk 0 (setStatus .initialized (emit (beginEvents s) s))
  else raiseFail .invalidPinConfig s

/-- GFXEN (40_config R112). -/
def execGfxen (on : Bool) (s : State) : Result :=
  requireInitialized s (respondOk 0 (setGfxEn on s))

/-- GETST (40_config R113): not gated. -/
def execGetst (s : State) : Result :=
  respondOk (s.status.code.setWidth 16) s

end Sys2Proof.Machine
end

