-- ==== Sys2Proof/Machine/Operands.lean ====
section
/-! DEFINITION. The Coordinate Translator: the operand forms of every coordinate command (41_translator). Pure functions
that answer a tuple, or `none` for the source's `fail`. Each computes exactly on natural numbers and narrows at the end;
41_translator R135 says why nothing is lost. -/

namespace Sys2Proof.Machine

/-- A place in controller space (41_translator R130): cpage 0..15, crow 0..31. -/
structure ControllerPlace where
  cpage : BitVec 4
  crow : BitVec 5
  deriving DecidableEq, Repr

/-- What `pixelToBufferIndex` answers (41_translator R131). -/
structure PixelPlace where
  bufferIndex : EntryIndex
  cpage : BitVec 4
  crow : BitVec 5
  bitOffset : BitVec 4
  deriving DecidableEq, Repr

/-- What `pageToBufferIndex` answers (41_translator R132). -/
structure PagePlace where
  bufferIndex : EntryIndex
  cpage : BitVec 4
  crow : BitVec 5
  deriving DecidableEq, Repr

/-- What `textToWideTextAddSpace` answers (41_translator R133). -/
structure TextPlace where
  wideCx : BitVec 4
  wideCy : BitVec 2
  addSpace : Bool
  deriving DecidableEq, Repr

/-- What `wideTextToWideText` answers (41_translator R134). -/
structure WideTextPlace where
  wideCx : BitVec 4
  wideCy : BitVec 2
  deriving DecidableEq, Repr

/-- The half-screen fold, one function shared by the pixel and page translators (41_translator R130). -/
def fold (page cy : Nat) : ControllerPlace :=
  if 32 ≤ cy then ⟨BitVec.ofNat 4 (page + 8), BitVec.ofNat 5 (cy - 32)⟩
  else ⟨BitVec.ofNat 4 page, BitVec.ofNat 5 cy⟩

/-- index = 8 × cy + page, with the logical coordinates (20_memory R51, 90_conflicts C1). -/
def bufferIndexOf (page cy : Nat) : EntryIndex := BitVec.ofNat 9 (8 * cy + page)

/-- 41_translator R131. -/
def pixelToBufferIndex (cx cy : Byte) : Option PixelPlace :=
  if 128 ≤ cx.toNat ∨ 64 ≤ cy.toNat then none
  else
    let page := cx.toNat / 16
    let place := fold page cy.toNat
    some ⟨bufferIndexOf page cy.toNat, place.cpage, place.crow, BitVec.ofNat 4 (15 - cx.toNat % 16)⟩

/-- 41_translator R132. -/
def pageToBufferIndex (page cy : Byte) : Option PagePlace :=
  if 8 ≤ page.toNat ∨ 64 ≤ cy.toNat then none
  else
    let place := fold page.toNat cy.toNat
    some ⟨bufferIndexOf page.toNat cy.toNat, place.cpage, place.crow⟩

/-- The text fold at line 4: FOLD_WCOLS = 8 more columns, TEXT_FOLD = 4 fewer lines (41_translator R133, R134). -/
def textFold (wideCx cy : Nat) : WideTextPlace :=
  if 4 ≤ cy then ⟨BitVec.ofNat 4 (wideCx + 8), BitVec.ofNat 2 (cy - 4)⟩
  else ⟨BitVec.ofNat 4 wideCx, BitVec.ofNat 2 cy⟩

/-- 41_translator R133; 90_conflicts C3 and C4. -/
def textToWideTextAddSpace (cx cy : Byte) : Option TextPlace :=
  if 16 ≤ cx.toNat ∨ 8 ≤ cy.toNat then none
  else
    let place := textFold (cx.toNat / 2) cy.toNat
    some ⟨place.wideCx, place.wideCy, cx.getLsbD 0⟩

/-- 41_translator R134. -/
def wideTextToWideText (cx cy : Byte) : Option WideTextPlace :=
  if 8 ≤ cx.toNat ∨ 8 ≤ cy.toNat then none
  else some (textFold cx.toNat cy.toNat)

end Sys2Proof.Machine
end

