-- ==== Sys2Proof/Machine/Framebuffer.lean ====
section
/-! DEFINITION. SETPX, GETPX, TGLPX, SETPG, GETPG, TGLPG, SETALL, TGLALL (42_framebuffer). All are gated, none emits an
event. -/

namespace Sys2Proof.Machine

/-- `1 << bit` on 16 bits (42_framebuffer R158). -/
def bitMask (bit : BitVec 4) : Page := 1#16 <<< bit.toNat

/-- SETPX (42_framebuffer R150). -/
def execSetpx (cx cy : Byte) (lit : Bool) (s : State) : Result :=
  requireInitialized s <| translated (pixelToBufferIndex cx cy) s fun p =>
    if lit then respondOk 0 (fbWrite p.bufferIndex (fbRead s p.bufferIndex ||| bitMask p.bitOffset) s)
    else respondOk 0 (fbWrite p.bufferIndex (fbRead s p.bufferIndex &&& ~~~(bitMask p.bitOffset)) s)

/-- GETPX (42_framebuffer R151). -/
def execGetpx (cx cy : Byte) (s : State) : Result :=
  requireInitialized s <| translated (pixelToBufferIndex cx cy) s fun p =>
    respondOk ((fbRead s p.bufferIndex >>> p.bitOffset.toNat) &&& 1#16) s

/-- TGLPX (42_framebuffer R152). -/
def execTglpx (cx cy : Byte) (s : State) : Result :=
  requireInitialized s <| translated (pixelToBufferIndex cx cy) s fun p =>
    respondOk 0 (fbWrite p.bufferIndex (fbRead s p.bufferIndex ^^^ bitMask p.bitOffset) s)

/-- SETPG (42_framebuffer R153). -/
def execSetpg (page cy : Byte) (value : Page) (s : State) : Result :=
  requireInitialized s <| translated (pageToBufferIndex page cy) s fun p =>
    respondOk 0 (fbWrite p.bufferIndex value s)

/-- GETPG (42_framebuffer R154). -/
def execGetpg (page cy : Byte) (s : State) : Result :=
  requireInitialized s <| translated (pageToBufferIndex page cy) s fun p =>
    respondOk (fbRead s p.bufferIndex) s

/-- TGLPG (42_framebuffer R155). -/
def execTglpg (page cy : Byte) (xorMask : Page) (s : State) : Result :=
  requireInitialized s <| translated (pageToBufferIndex page cy) s fun p =>
    respondOk 0 (fbWrite p.bufferIndex (fbRead s p.bufferIndex ^^^ xorMask) s)

/-- SETALL (42_framebuffer R156). -/
def execSetall (lit : Bool) (s : State) : Result :=
  requireInitialized s (respondOk 0 (fbFill (if lit then 0xFFFF#16 else 0x0000#16) s))

/-- TGLALL (42_framebuffer R157). -/
def execTglall (s : State) : Result :=
  requireInitialized s (respondOk 0 (fbComplement s))

end Sys2Proof.Machine
end

