-- ==== Sys2Proof/Machine/Bus.lean ====
section
/-! DEFINITION. The Bus Transmitter: `sendByte` and `selectInstructionMode` (43_bus). No opcode reaches them; the paint and
text commands call them. -/

namespace Sys2Proof.Machine

/-- One bus event: `Bus(isData, byte, postDelay)` (43_bus R180, 00_scope R14). -/
structure BusByte where
  isData : Bool
  byte : Byte
  postDelay : Delay
  deriving DecidableEq, Repr

/-- The fifteen GPIO events of one bus event (43_bus R180; 90_conflicts C6). -/
def busEvents (s : State) (b : BusByte) : List Event :=
  [.writePin (pin s slotE) false, .writePin (pin s slotRS) b.isData, .sleepMicros .settle]
    ++ (s.cfg.dataLineOrder.map fun k => .writePin (pin s (slotD k)) (b.byte.getLsbD k.val))
    ++ [.writePin (pin s slotE) true, .sleepMicros .settle, .writePin (pin s slotE) false, .sleepMicros b.postDelay]

/-- `sendByte` (43_bus R180). -/
def sendByte (b : BusByte) (s : State) : State := emit (busEvents s b) s

/-- A bus-byte trace sent in order; the pins and the parameters do not change in between (43_bus R183). -/
def sendBytes (bs : List BusByte) (s : State) : State := emit (bs.flatMap (busEvents s)) s

/-- `Cmd(b)` (43_bus R183). -/
def cmd (b : Byte) : BusByte := ⟨false, b, .cmdShort⟩

/-- `Data(b)` (43_bus R183). -/
def data (b : Byte) : BusByte := ⟨true, b, .cmdShort⟩

/-- A 16-bit value as two data bytes, high byte first (20_memory R53). -/
def dataPage (v : Page) : List BusByte := [data (v.extractLsb' 8 8), data (v.extractLsb' 0 8)]

/-- The byte that selects the instruction set (43_bus R182); it alone gets T_CMD_LONG (43_bus R181). -/
def modeSelect (cfg : Config) (gfxEn extended : Bool) : BusByte :=
  if extended then ⟨false, cfg.cmdExtended ||| (if gfxEn then cfg.gfxBit else 0#8), .cmdLong⟩
  else ⟨false, cfg.cmdBasic, .cmdLong⟩

/-- `selectInstructionMode(extended)`: the byte is sent every time, and the choice recorded in `imode` (43_bus R182,
10_state R29). -/
def selectInstructionMode (extended : Bool) (s : State) : State :=
  setIMode (if extended then .extended else .basic) (sendByte (modeSelect s.cfg s.gfxEn extended) s)

end Sys2Proof.Machine
end

