-- ==== Sys2Proof/Machine/Paint.lean ====
section
/-! DEFINITION. PNTPG, PNTALL, PNTPX (44_paint). All are gated; none changes the framebuffer. -/

namespace Sys2Proof.Machine

/-- The four bytes of one page after the mode select: vertical address, horizontal address, high byte, low byte
(44_paint R200). -/
def pageBytes (cfg : Config) (p : PagePlace) (v : Page) : List BusByte :=
  [cmd (cfg.addrFlag ||| p.crow.setWidth 8), cmd (cfg.addrFlag ||| p.cpage.setWidth 8)] ++ dataPage v

/-- PNTPG from its second line on (44_paint R200, R202). -/
def paintPage (page cy : Byte) (s : State) : Result :=
  translated (pageToBufferIndex page cy) s fun p =>
    respondOk 0 (sendBytes (pageBytes s.cfg p (fbRead s p.bufferIndex)) (selectInstructionMode true s))

/-- PNTPG (44_paint R200). -/
def execPntpg (page cy : Byte) (s : State) : Result :=
  requireInitialized s (paintPage page cy s)

/-- The eighteen bytes of buffer-space row `r`: vertical address r, horizontal address 0, eight entries (44_paint R201;
90_conflicts C2). -/
def rowBytes (s : State) (r : Nat) : List BusByte :=
  [cmd (s.cfg.addrFlag ||| BitVec.ofNat 8 r), cmd (s.cfg.addrFlag ||| 0#8)]
    ++ (List.range 8).flatMap fun p => dataPage (fbRead s (bufferIndexOf p r))

/-- PNTALL (44_paint R201): one mode select, then the 64 rows in order. -/
def execPntall (s : State) : Result :=
  requireInitialized s
    (respondOk 0 (sendBytes ((List.range 64).flatMap (rowBytes s)) (selectInstructionMode true s)))

/-- PNTPX (44_paint R202): PNTPG on page cx / 16. -/
def execPntpx (cx cy : Byte) (s : State) : Result :=
  requireInitialized s (paintPage (BitVec.ofNat 8 (cx.toNat / 16)) cy s)

end Sys2Proof.Machine
end

