-- ==== Sys2Proof/Machine/Text.lean ====
section
/-! DEFINITION. SETTC, SETWTC, PRTC, PRTW, FILLC, FILLW (45_text). All are gated; none reads or writes the framebuffer. -/

namespace Sys2Proof.Machine

/-- HOME_ROW0 (00_scope R9). -/
def homeRow0 : Byte := 0x80#8

/-- HOME_ROW1 (00_scope R9). -/
def homeRow1 : Byte := 0x90#8

/-- HOME_CMD (00_scope R10): the source's bytes at 0 and 1, the open parameters at 2 and 3 (45_text R220). -/
def homeCmd (cfg : Config) (n : BitVec 2) : Byte :=
  match n.toNat with
  | 0 => homeRow0
  | 1 => homeRow1
  | 2 => cfg.homeCmd2
  | _ => cfg.homeCmd3

/-- The home command and one cursor-right command per wide column (45_text R220, R221). -/
def cursorBytes (cfg : Config) (wideCx : BitVec 4) (wideCy : BitVec 2) : List BusByte :=
  cmd (homeCmd cfg wideCy) :: List.replicate wideCx.toNat (cmd cfg.cmdCursorRight)

/-- The filler space of an odd narrow column (45_text R220; 90_conflicts C5). -/
def spaceBytes (cfg : Config) (addSpace : Bool) : List BusByte :=
  if addSpace then [data cfg.charSpace] else []

/-- SETTC (45_text R220): mode select, home, cursor-right steps, then the space. -/
def execSettc (cx cy : Byte) (s : State) : Result :=
  requireInitialized s <| translated (textToWideTextAddSpace cx cy) s fun p =>
    respondOk 0 (sendBytes (cursorBytes s.cfg p.wideCx p.wideCy ++ spaceBytes s.cfg p.addSpace)
      (selectInstructionMode false s))

/-- SETWTC (45_text R221). -/
def execSetwtc (cx cy : Byte) (s : State) : Result :=
  requireInitialized s <| translated (wideTextToWideText cx cy) s fun p =>
    respondOk 0 (sendBytes (cursorBytes s.cfg p.wideCx p.wideCy) (selectInstructionMode false s))

/-- PRTC (45_text R222): no mode select. -/
def execPrtc (c : Byte) (s : State) : Result :=
  requireInitialized s (respondOk 0 (sendByte (data c) s))

/-- PRTW (45_text R223): no mode select. -/
def execPrtw (w : Page) (s : State) : Result :=
  requireInitialized s (respondOk 0 (sendBytes (dataPage w) s))

/-- Both native rows: the home byte of each, then the characters of one row (45_text R224, R225). -/
def fillBytes (row : List BusByte) : List BusByte :=
  cmd homeRow0 :: row ++ cmd homeRow1 :: row

/-- FILLC (45_text R224). -/
def execFillc (c : Byte) (s : State) : Result :=
  requireInitialized s
    (respondOk 0 (sendBytes (fillBytes (List.replicate s.cfg.fillNarrow (data c))) (selectInstructionMode false s)))

/-- FILLW (45_text R225). -/
def execFillw (w : Page) (s : State) : Result :=
  requireInitialized s
    (respondOk 0 (sendBytes (fillBytes ((List.replicate s.cfg.fillWide (dataPage w)).flatten))
      (selectInstructionMode false s)))

end Sys2Proof.Machine
end

