-- ==== Sys2Proof/Machine/Dispatch.lean ====
section
/-! DEFINITION. One arm for each command, a direct call of its meaning. -/

namespace Sys2Proof.Machine

-- 40_config, 42_framebuffer, 44_paint, 45_text, in the order of the opcode map (30_encoding R83).
def exec (i : Instr) (s : State) : Host.Outcome State Fault Refusal :=
  match i with
  | .setpin slot id => Sys2Proof.Machine.execSetpin slot id s
  | .begin => Sys2Proof.Machine.execBegin s
  | .gfxen on => Sys2Proof.Machine.execGfxen on s
  | .getst => Sys2Proof.Machine.execGetst s
  | .setpx cx cy lit => Sys2Proof.Machine.execSetpx cx cy lit s
  | .getpx cx cy => Sys2Proof.Machine.execGetpx cx cy s
  | .tglpx cx cy => Sys2Proof.Machine.execTglpx cx cy s
  | .setpg page cy value => Sys2Proof.Machine.execSetpg page cy value s
  | .getpg page cy => Sys2Proof.Machine.execGetpg page cy s
  | .tglpg page cy xorMask => Sys2Proof.Machine.execTglpg page cy xorMask s
  | .setall lit => Sys2Proof.Machine.execSetall lit s
  | .tglall => Sys2Proof.Machine.execTglall s
  | .pntpg page cy => Sys2Proof.Machine.execPntpg page cy s
  | .pntall => Sys2Proof.Machine.execPntall s
  | .pntpx cx cy => Sys2Proof.Machine.execPntpx cx cy s
  | .settc cx cy => Sys2Proof.Machine.execSettc cx cy s
  | .setwtc cx cy => Sys2Proof.Machine.execSetwtc cx cy s
  | .prtc c => Sys2Proof.Machine.execPrtc c s
  | .prtw w => Sys2Proof.Machine.execPrtw w s
  | .fillc c => Sys2Proof.Machine.execFillc c s
  | .fillw w => Sys2Proof.Machine.execFillw w s

end Sys2Proof.Machine
end

