-- ==== Sys2Proof/Machine/Port.lean ====
section
/-! DEFINITION. One presented word carried out: decode it, then execute it, or fail with IllegalCommand (30_encoding R85,
60_exceptions R253). -/

namespace Sys2Proof.Machine

/-- What an illegal word does: `raise Fail(IllegalCommand)`, whatever the reason (30_encoding R85). -/
def rejectWord (_ : DecodeError) (s : State) : Result := raiseFail .illegalCommand s

/-- One 40-bit word: the decoder's check comes before every other (60_exceptions R253). -/
def performWord (w : CommandWord) (s : State) : Result :=
  match decode w with
  | .ok i => exec i s
  | .error e => rejectWord e s

/-- The word of a command as spec/opcode_table.json numbers its bits, with every bit at or above `nbits` zero. -/
def tableWord (nbits w : Nat) : CommandWord := BitVec.ofNat 40 (w % 2 ^ nbits)

end Sys2Proof.Machine
end

