-- ==== Sys2Proof/Machine/Step.lean ====
section
/-! DEFINITION. One step: the block takes the command the host presents and carries it out, to completion (00_scope R6,
R7). -/

namespace Sys2Proof.Machine

/-- One command from the host port. With none presented the block takes no step (00_scope R6; log entry 5). -/
def step (s : State) : Host.Outcome State Fault Refusal :=
  match takeCommand s with
  | none => .fault .noCommand
  | some (w, s') => performWord w s'

/-- `s` with the command placed where `step` takes its next one; what the host presents after it stays. -/
def State.withFetchWord (s : State) (nbits w : Nat) : State := placeCommand (tableWord nbits w) s

end Sys2Proof.Machine
end

