-- ==== Sys2Proof/Machine/Pseudo.lean ====
section
/-! DEFINITION. The pseudo-instructions (30_encoding R90, 44_paint R203, 45_text R226): the host sends the commands of an
expansion one after another and receives one response for each. -/

namespace Sys2Proof.Machine

/-- The six pseudo-instructions. A text is delivered inline, so the count n of PRTTXT and PRTWTXT is the length of the
list. -/
inductive Pseudo where
  /-- CONFIG d0, ..., d7, rs, e. -/
  | config (d0 d1 d2 d3 d4 d5 d6 d7 rs e : Byte)
  /-- CLRGFX. -/
  | clrgfx
  /-- PRTTXT n, c0, ..., c(n-1). -/
  | prttxt (cs : List Byte)
  /-- PRTTXTZ c0, c1, ... -/
  | prttxtz (cs : List Byte)
  /-- PRTWTXT n, w0, ..., w(n-1). -/
  | prtwtxt (ws : List Page)
  /-- PRTWTXTZ w0, w1, ... -/
  | prtwtxtz (ws : List Page)
  deriving DecidableEq, Repr

/-- The real commands of a pseudo-instruction, in order (30_encoding R90). An unlengthed text without a zero code is sent
whole: DESIGN CHOICE, safe, log entry 13. -/
def Pseudo.expand : Pseudo → List Instr
  | .config d0 d1 d2 d3 d4 d5 d6 d7 rs e =>
    [.setpin 0 d0, .setpin 1 d1, .setpin 2 d2, .setpin 3 d3, .setpin 4 d4, .setpin 5 d5, .setpin 6 d6, .setpin 7 d7,
      .setpin 8 rs, .setpin 9 e]
  | .clrgfx => [.setall false, .pntall]
  | .prttxt cs => cs.map .prtc
  | .prttxtz cs => (cs.takeWhile fun c => c ≠ 0#8).map .prtc
  | .prtwtxt ws => ws.map .prtw
  | .prtwtxtz ws => (ws.takeWhile fun w => w ≠ 0#16).map .prtw

/-- The host with a pseudo-instruction's words still to present (30_encoding R90). -/
def presentPseudo (p : Pseudo) (s : State) : State := present (p.expand.map encode) s

/-- "The overall result is success when every response has FAIL = 0" (30_encoding R90). -/
def overallSuccess (rs : List ResponseWord) : Bool := rs.all fun r => !fieldFAIL r

end Sys2Proof.Machine
end

