-- ==== Sys2Proof/Machine/Timing.lean ====
section
/-! DEFINITION. What 70_reset R302 counts: the microseconds of the sleeps in a list of events. Nothing in the machine
depends on it (70_reset R301). -/

namespace Sys2Proof.Machine

/-- The duration a symbolic delay stands for (00_scope R10). -/
def Delay.micros (cfg : Config) : Delay → Nat
  | .settle => cfg.tSettle
  | .cmdShort => cfg.tCmdShort
  | .cmdLong => cfg.tCmdLong

/-- The least time one event takes: a sleep's duration; the other primitives are immediate (00_scope R8). -/
def Event.micros (cfg : Config) : Event → Nat
  | .setPinMode _ _ => 0
  | .writePin _ _ => 0
  | .sleepMicros d => d.micros cfg

/-- The minimum duration of a list of events (70_reset R302). -/
def minimumMicros (cfg : Config) (es : List Event) : Nat := (es.map (Event.micros cfg)).sum

end Sys2Proof.Machine
end

