-- ==== Sys2Proof/Safety.lean ====
section
/-! DEFINITION. What counts as a safe state and a lawful command, in the terms the statements use: the invariant of the
block (10_state R24, R26; 00_scope R10), which commands are gated (10_state R25), which coordinates are out of range
(60_exceptions R251), and what a command leaves as it was. -/

namespace Sys2Proof.Machine

/-- Whenever `status` = Initialized, every `PIN[k]` for k in 0..9 is valid (10_state R26). -/
abbrev PinsGuard (s : State) : Prop :=
  s.status = .initialized → ∀ k : Fin 10, pinValid (pin s (requiredSlot k)) = true

/-- The invariant of the block: the parameters meet the constraints of 00_scope R10, Initialized implies ten valid pins
(10_state R26), and Error is never entered (10_state R24). -/
abbrev State.Inv (s : State) : Prop :=
  s.cfg.wf = true ∧ PinsGuard s ∧ s.status ≠ .error

/-- A response the block can return: FAIL = 0 with CAUSE = 0, or FAIL = 1 with VALUE = 0 and a cause from 1 to 4; causes
5, 6 and 7 are never produced (30_encoding R82, 60_exceptions R251). -/
abbrev LawfulResponse (r : ResponseWord) : Prop :=
  (fieldFAIL r = false ∧ fieldCAUSE r = 0#3) ∨
    (fieldFAIL r = true ∧ fieldVALUE r = 0#16 ∧ 1 ≤ (fieldCAUSE r).toNat ∧ (fieldCAUSE r).toNat ≤ 4)

/-- The commands that require Initialized (10_state R25). -/
def gated : Instr → Bool
  | .setpin _ _ => false
  | .begin => false
  | .gfxen _ => true
  | .getst => false
  | .setpx _ _ _ => true
  | .getpx _ _ => true
  | .tglpx _ _ => true
  | .setpg _ _ _ => true
  | .getpg _ _ => true
  | .tglpg _ _ _ => true
  | .setall _ => true
  | .tglall => true
  | .pntpg _ _ => true
  | .pntall => true
  | .pntpx _ _ => true
  | .settc _ _ => true
  | .setwtc _ _ => true
  | .prtc _ => true
  | .prtw _ => true
  | .fillc _ => true
  | .fillw _ => true

/-- The commands whose coordinates lie outside their logical space (60_exceptions R251, cause 3). -/
def outOfRange : Instr → Bool
  | .setpin _ _ => false
  | .begin => false
  | .gfxen _ => false
  | .getst => false
  | .setpx cx cy _ => decide (128 ≤ cx.toNat ∨ 64 ≤ cy.toNat)
  | .getpx cx cy => decide (128 ≤ cx.toNat ∨ 64 ≤ cy.toNat)
  | .tglpx cx cy => decide (128 ≤ cx.toNat ∨ 64 ≤ cy.toNat)
  | .setpg page cy _ => decide (8 ≤ page.toNat ∨ 64 ≤ cy.toNat)
  | .getpg page cy => decide (8 ≤ page.toNat ∨ 64 ≤ cy.toNat)
  | .tglpg page cy _ => decide (8 ≤ page.toNat ∨ 64 ≤ cy.toNat)
  | .setall _ => false
  | .tglall => false
  | .pntpg page cy => decide (8 ≤ page.toNat ∨ 64 ≤ cy.toNat)
  | .pntall => false
  | .pntpx cx cy => decide (128 ≤ cx.toNat ∨ 64 ≤ cy.toNat)
  | .settc cx cy => decide (16 ≤ cx.toNat ∨ 8 ≤ cy.toNat)
  | .setwtc cx cy => decide (8 ≤ cx.toNat ∨ 8 ≤ cy.toNat)
  | .prtc _ => false
  | .prtw _ => false
  | .fillc _ => false
  | .fillw _ => false

/-- The commands that write the framebuffer (20_memory R55). -/
def writesFramebuffer : Instr → Bool
  | .setpin _ _ => false
  | .begin => false
  | .gfxen _ => false
  | .getst => false
  | .setpx _ _ _ => true
  | .getpx _ _ => false
  | .tglpx _ _ => true
  | .setpg _ _ _ => true
  | .getpg _ _ => false
  | .tglpg _ _ _ => true
  | .setall _ => true
  | .tglall => true
  | .pntpg _ _ => false
  | .pntall => false
  | .pntpx _ _ => false
  | .settc _ _ => false
  | .setwtc _ _ => false
  | .prtc _ => false
  | .prtw _ => false
  | .fillc _ => false
  | .fillw _ => false

/-- The instruction mode a command selects on the controller, where it selects one (43_bus R182, 44_paint, 45_text). -/
def selectsMode : Instr → Option IMode
  | .setpin _ _ => none
  | .begin => none
  | .gfxen _ => none
  | .getst => none
  | .setpx _ _ _ => none
  | .getpx _ _ => none
  | .tglpx _ _ => none
  | .setpg _ _ _ => none
  | .getpg _ _ => none
  | .tglpg _ _ _ => none
  | .setall _ => none
  | .tglall => none
  | .pntpg _ _ => some .extended
  | .pntall => some .extended
  | .pntpx _ _ => some .extended
  | .settc _ _ => some .basic
  | .setwtc _ _ => some .basic
  | .prtc _ => none
  | .prtw _ => none
  | .fillc _ => some .basic
  | .fillw _ => some .basic

/-- The bus bytes of a command that succeeds, by 70_reset R302: the wide column and the space of SETTC and SETWTC, and
the fill counts, included. BEGIN's ten direction events are no bus bytes. -/
def busByteCount (cfg : Config) : Instr → Nat
  | .setpin _ _ => 0
  | .begin => 0
  | .gfxen _ => 0
  | .getst => 0
  | .setpx _ _ _ => 0
  | .getpx _ _ => 0
  | .tglpx _ _ => 0
  | .setpg _ _ _ => 0
  | .getpg _ _ => 0
  | .tglpg _ _ _ => 0
  | .setall _ => 0
  | .tglall => 0
  | .pntpg _ _ => 5
  | .pntall => 1153
  | .pntpx _ _ => 5
  | .settc cx cy => 2 + (cx.toNat / 2 + if 4 ≤ cy.toNat then 8 else 0) + cx.toNat % 2
  | .setwtc cx cy => 2 + (cx.toNat + if 4 ≤ cy.toNat then 8 else 0)
  | .prtc _ => 1
  | .prtw _ => 2
  | .fillc _ => 1 + 2 * (1 + cfg.fillNarrow)
  | .fillw _ => 1 + 2 * (1 + 2 * cfg.fillWide)

/-- A command the machine carries out with its own effect, and not with a failure, in this state: its gate is open, its
coordinates are in range, its pins are valid, its slot exists (60_exceptions R251). -/
def completes (i : Instr) (s : State) : Bool :=
  (!gated i || decide (s.status = .initialized)) && !outOfRange i && i.wellFormed
    && (decide (i ≠ .begin) || requiredPinsValid s)

/-- What every command but SETPIN, BEGIN and GFXEN leaves as it was: the parameters, the pins, `status`, `gfx_en`, and
the host's remaining commands (10_state R20). -/
abbrev SameControl (s t : State) : Prop :=
  t.cfg = s.cfg ∧ t.pins = s.pins ∧ t.status = s.status ∧ t.gfxEn = s.gfxEn ∧ t.commands = s.commands

/-- Every entry of the framebuffer reads as before. -/
abbrev SameFramebuffer (s t : State) : Prop := ∀ i : EntryIndex, fbRead t i = fbRead s i

/-- Every pin slot reads as before. -/
abbrev SamePins (s t : State) : Prop := ∀ k : Fin 11, pin t k = pin s k

/-- The events of a bus-byte trace, sent with the pins and parameters of `s` (43_bus R183). -/
def eventsOf (s : State) (bs : List BusByte) : List Event := bs.flatMap (busEvents s)

/-- A failed command: nothing but one response added (60_exceptions R250). -/
abbrev onlyResponse (s : State) (r : ResponseWord) : Result :=
  .next { s with responses := s.responses ++ [r] }

end Sys2Proof.Machine
end

