-- ==== Sys2Proof/Certificates/Slice0/Obligations.lean ====
section
/-! DEFINITION. The statements for the provers, from the numbered rules of spec/. Response words are written as the spec
writes them: 0x0vvvv success with value vvvv, 0x90000 NotInitialized, 0xA0000 InvalidPinConfig, 0xB0000 OutOfRange, 0xC0000
IllegalCommand. -/

open Sys2Proof Sys2Proof.Machine

/-! ### Encoding -/

/-- 30_encoding R83, R84, R86: decoding the word of a well-formed command gives the command, every operand included. -/
def Obligations.DecodeOfEncode : Prop :=
  ∀ i : Instr, i.wellFormed = true → decode (encode i) = .ok i

/-- 30_encoding R80 to R86: a word that decodes is the word of the command it decodes to, so each command has one word;
and the command is well-formed. -/
def Obligations.EncodeOfDecode : Prop :=
  ∀ (w : CommandWord) (i : Instr), decode w = .ok i → encode i = w ∧ i.wellFormed = true

/-- 30_encoding R86: the rows of the opcode map are pairwise exclusive: no word spells two of them. -/
def Obligations.OpcodeRowsExclusive : Prop :=
  ∀ (w : CommandWord) (r r' : OpcodeRow), r ∈ opcodeTable → r' ∈ opcodeTable →
    w &&& r.mask = r.matchBits → w &&& r'.mask = r'.matchBits → r = r'

/-- 30_encoding R85: a word that no row matches, and a SETPIN with a slot above 10, is illegal; carrying it out changes
nothing and emits nothing, whatever the state, and the response is FAIL = 1, CAUSE = 4, VALUE = 0. Every other word is a
command and is executed. -/
def Obligations.IllegalWordHasNoEffect : Prop :=
  ∀ (w : CommandWord) (s : State),
    (((∀ r ∈ opcodeTable, w &&& r.mask ≠ r.matchBits) ∨ (fieldOP w = 0x01#8 ∧ 10 < (fieldA w).toNat)) →
      performWord w s = onlyResponse s 0xC0000#20) ∧
    (¬ ((∀ r ∈ opcodeTable, w &&& r.mask ≠ r.matchBits) ∨ (fieldOP w = 0x01#8 ∧ 10 < (fieldA w).toNat)) →
      ∃ i, decode w = .ok i ∧ performWord w s = exec i s)

/-- 30_encoding R89 and 95_test_vectors: words written out from the encoding decode to the commands they spell; tier 1
sanity. -/
def Obligations.WrittenWordsDecode : Prop :=
  decode 0x01080A0000 = .ok (.setpin 8 10) ∧ decode 0x0200000000 = .ok .begin ∧
  decode 0x1011210001 = .ok (.setpx 17 33 true) ∧ decode 0x13073FA5C3 = .ok (.setpg 7 63 0xA5C3) ∧
  decode 0x2003280000 = .ok (.pntpg 3 40) ∧ decode 0x4003050000 = .ok (.settc 3 5) ∧
  decode 0x430000B0A1 = .ok (.prtw 0xB0A1) ∧ decode 0x0500000000 = .error (.unlistedOpcode 0x05) ∧
  decode 0x1000000002 = .error (.nonzeroField .SETPX) ∧ decode 0x010B000000 = .error (.slotOutOfRange 11)

/-! ### Step, run, reset -/

/-- A step takes the word the host presents and carries it out; where the word decodes to a command, the step is `exec` of
that command on the state with the word taken from the port. `withFetchWord` places a word there. (00_scope R7; the port
is the model's own, log entry 5.) -/
def Obligations.StepRunsDecodedCommand : Prop :=
  ∀ (s : State) (w : CommandWord),
    (∀ rest, s.commands = w :: rest → step s = performWord w { s with commands := rest }) ∧
    (∀ (i : Instr) (rest : List CommandWord), s.commands = w :: rest → decode w = .ok i →
      step s = exec i { s with commands := rest }) ∧
    (∀ i : Instr, decode w = .ok i → step (s.withFetchWord 40 w.toNat) = exec i s)

/-- 00_scope R6: with no command presented the block takes no step; the model's fault (log entry 5). -/
def Obligations.NoCommandNoStep : Prop :=
  ∀ s : State, s.commands = [] → step s = .fault .noCommand

/-- 00_scope R7: each step answers exactly one response, appends to the trace and removes one command from the port; it
never changes the parameters. It does so for every word presented. -/
def Obligations.OneResponsePerCommand : Prop :=
  ∀ (s : State) (w : CommandWord) (rest : List CommandWord), s.commands = w :: rest →
    ∃ (t : State) (r : ResponseWord) (es : List Event), step s = .next t ∧ t.responses = s.responses ++ [r] ∧
      t.trace = s.trace ++ es ∧ t.commands = rest ∧ t.cfg = s.cfg

/-- 70_reset R303: a run of n commands, from every state, ends after n steps with exactly n responses, and none of what
was observed before it is lost. The port and the list of responses are the model's own, log entry 5. -/
def Obligations.RunEndsWithOneResponseEach : Prop :=
  ∀ s : State, ∃ (t : State) (rs : List ResponseWord) (es : List Event),
    core.run s.commands.length s = .next t ∧ t.commands = [] ∧ t.responses = s.responses ++ rs ∧
      rs.length = s.commands.length ∧ t.trace = s.trace ++ es

/-- 70_reset R280: the state after reset, for every framebuffer content and every parameters; `State.reset` is one of
these. -/
def Obligations.ResetLeaves : Prop :=
  (∀ (cfg : Config) (fb : Vector Page 512),
    (State.resetWith cfg fb).status = .uninitialized ∧
    (∀ k : Fin 11, pin (State.resetWith cfg fb) k = 0xFF#8) ∧
    (State.resetWith cfg fb).gfxEn = false ∧ (State.resetWith cfg fb).imode = .unknown ∧
    (State.resetWith cfg fb).fb = fb ∧ (State.resetWith cfg fb).trace = []) ∧
  ∃ (cfg : Config) (fb : Vector Page 512), State.reset = State.resetWith cfg fb

/-- The invariant holds after reset: with the parameters of the chip at hand, and after every platform reset of a state
whose parameters meet their constraints. -/
def Obligations.InvAtReset : Prop :=
  State.reset.Inv ∧ ∀ (s : State) (fb : Vector Page 512), s.cfg.wf = true → (platformReset fb s).Inv

/-- 10_state R26, R24: every step keeps the invariant. -/
def Obligations.StepKeepsInv : Prop :=
  ∀ s t : State, s.Inv → step s = .next t → t.Inv

/-! ### Failures, gate, status -/

/-- 60_exceptions R250: where the response to a word has FAIL = 1, the response is all that carrying it out did, and its
VALUE is 0. -/
def Obligations.FailedCommandHasNoEffect : Prop :=
  ∀ (w : CommandWord) (s : State), ∃ (t : State) (r : ResponseWord),
    performWord w s = .next t ∧ t.responses = s.responses ++ [r] ∧
    (fieldFAIL r = true → fieldVALUE r = 0#16 ∧ performWord w s = onlyResponse s r)

/-- 60_exceptions R251: every response is success with CAUSE 0, or failure with VALUE 0 and a cause from 1 to 4. -/
def Obligations.ResponsesAreLawful : Prop :=
  ∀ s t : State, step s = .next t → ∃ r, t.responses = s.responses ++ [r] ∧ LawfulResponse r

/-- 60_exceptions R253: of several causes one is reported: IllegalCommand before all, then NotInitialized, then
OutOfRange; InvalidPinConfig arises only in BEGIN. -/
def Obligations.FailurePriority : Prop :=
  ∀ (w : CommandWord) (s : State),
    (∀ e, decode w = .error e → performWord w s = onlyResponse s 0xC0000#20) ∧
    (∀ i, decode w = .ok i → gated i = true → s.status ≠ .initialized → performWord w s = onlyResponse s 0x90000#20) ∧
    (∀ i, decode w = .ok i → s.status = .initialized → outOfRange i = true →
      performWord w s = onlyResponse s 0xB0000#20) ∧
    (performWord w s = onlyResponse s 0xA0000#20 → decode w = .ok .begin)

/-- 60_exceptions R251: the cause of every response: 4 for an illegal word; 1 for a gated command that is not
Initialized; 2 for BEGIN with one of the slots 0..9 unset; 3 for a coordinate out of range; else 0, and FAIL = 0. A
failure records nothing besides the response. -/
def Obligations.CauseOfEveryResponse : Prop :=
  ∀ (w : CommandWord) (s : State), ∃ (t : State) (r : ResponseWord),
    performWord w s = .next t ∧ t.responses = s.responses ++ [r] ∧ fieldFAIL r = decide (fieldCAUSE r ≠ 0#3) ∧
    (∀ e, decode w = .error e → fieldCAUSE r = 4#3) ∧
    (∀ i, decode w = .ok i → fieldCAUSE r =
      if gated i = true ∧ s.status ≠ .initialized then 1#3
      else if i = .begin ∧ (∃ k : Fin 11, k.val < 10 ∧ 0x80 ≤ (pin s k).toNat) then 2#3
      else if outOfRange i = true then 3#3 else 0#3) ∧
    (fieldFAIL r = true → performWord w s = onlyResponse s r)

/-- 60_exceptions R251, R252: a command completes, with FAIL = 0 and CAUSE = 0, exactly where its gate is open, its
coordinates are in range, its slot exists and (BEGIN) its pins are valid. -/
def Obligations.SuccessExactly : Prop :=
  ∀ (i : Instr) (s : State), ∃ (t : State) (r : ResponseWord), exec i s = .next t ∧ t.responses = s.responses ++ [r] ∧
    (fieldFAIL r = false ↔ completes i s = true) ∧ (fieldFAIL r = false → fieldCAUSE r = 0#3)

/-- 60_exceptions R257, 10_state R24: Initialized is entered only by a successful BEGIN and left only by SETPIN; Error is
never entered. -/
def Obligations.StatusTransitions : Prop :=
  ∀ (i : Instr) (s t : State), exec i s = .next t →
    (t.status = s.status ∨ (i = .begin ∧ t.status = .initialized) ∨
      ((∃ slot id, i = .setpin slot id) ∧ t.status = .uninitialized)) ∧
    (t.status = .error → s.status = .error)

/-- 10_state R20: which command may write which element of the state. -/
def Obligations.WhoWritesWhat : Prop :=
  ∀ (i : Instr) (s t : State), exec i s = .next t →
    t.cfg = s.cfg ∧ t.commands = s.commands ∧
    ((∀ slot id, i ≠ .setpin slot id) → SamePins s t) ∧
    (writesFramebuffer i = false → SameFramebuffer s t) ∧
    ((∀ on, i ≠ .gfxen on) → t.gfxEn = s.gfxEn) ∧
    ((∀ slot id, i ≠ .setpin slot id) → selectsMode i = none → t.imode = s.imode) ∧
    (∀ m, selectsMode i = some m → completes i s = true → t.imode = m) ∧
    (selectsMode i = none → i ≠ .begin → (∀ c, i ≠ .prtc c) → (∀ w, i ≠ .prtw w) → t.trace = s.trace)

/-- 10_state R21: slot 10 is written by SETPIN and read by no command: replacing its identifier before a command (other
than a SETPIN of slot 10) and after it come to the same. -/
def Obligations.SlotTenIsNeverRead : Prop :=
  ∀ (i : Instr) (s : State) (id : Byte), (∀ id', i ≠ .setpin 10 id') →
    ∃ t, exec i s = .next t ∧ exec i (setPin 10 id s) = .next (setPin 10 id t)

/-- 10_state R29: no command reads `imode`: a command on a state with another `imode` ends alike, but for `imode`
itself. -/
def Obligations.ModeShadowIsNeverRead : Prop :=
  ∀ (i : Instr) (s : State) (m : IMode),
    ∃ (t : State) (m' : IMode), exec i s = .next t ∧ exec i (setIMode m s) = .next (setIMode m' t)

/-! ### Configuration -/

/-- 40_config R110. -/
def Obligations.SetpinWritesOneSlot : Prop :=
  ∀ (slot id : Byte) (s : State),
    (slot.toNat ≤ 10 → ∃ t, exec (.setpin slot id) s = .next t ∧
      (∀ k : Fin 11, pin t k = if k.val = slot.toNat then id else pin s k) ∧
      t.status = .uninitialized ∧ t.imode = .unknown ∧ t.responses = s.responses ++ [0x00000#20] ∧
      t.gfxEn = s.gfxEn ∧ SameFramebuffer s t ∧ t.trace = s.trace ∧ t.cfg = s.cfg ∧ t.commands = s.commands) ∧
    (10 < slot.toNat → exec (.setpin slot id) s = onlyResponse s 0xC0000#20)

/-- 40_config R111: ten valid identifiers: the direction events in PINMODE_ORDER, whatever order the chip has exactly ten
of them and one for each slot 0..9, and `status` Initialized; an unset one among them: InvalidPinConfig and nothing else.
Slot 10 is not examined. -/
def Obligations.BeginValidatesAndSetsDirections : Prop :=
  ∀ s : State,
    ((∀ k : Fin 11, k.val < 10 → (pin s k).toNat ≤ 0x7F) → ∃ (t : State) (es : List Event), exec .begin s = .next t ∧
      t.status = .initialized ∧ t.responses = s.responses ++ [0x00000#20] ∧ t.trace = s.trace ++ es ∧
      es = s.cfg.pinmodeOrder.map (fun k => .setPinMode (pin s (requiredSlot k)) .output) ∧
      (s.cfg.wf = true → es.length = 10 ∧
        es.Perm ((List.finRange 10).map fun k => .setPinMode (pin s (requiredSlot k)) .output)) ∧
      SamePins s t ∧ t.gfxEn = s.gfxEn ∧ t.imode = s.imode ∧ SameFramebuffer s t ∧ t.cfg = s.cfg ∧
      t.commands = s.commands) ∧
    ((∃ k : Fin 11, k.val < 10 ∧ 0x80 ≤ (pin s k).toNat) → exec .begin s = onlyResponse s 0xA0000#20)

/-- 40_config R112. -/
def Obligations.GfxenWritesFlag : Prop :=
  ∀ (on : Bool) (s : State),
    (s.status = .initialized → ∃ t, exec (.gfxen on) s = .next t ∧ t.gfxEn = on ∧
      t.responses = s.responses ++ [0x00000#20] ∧ SamePins s t ∧ t.status = s.status ∧ t.imode = s.imode ∧
      SameFramebuffer s t ∧ t.trace = s.trace ∧ t.cfg = s.cfg ∧ t.commands = s.commands) ∧
    (s.status ≠ .initialized → exec (.gfxen on) s = onlyResponse s 0x90000#20)

/-- 40_config R113: GETST returns the status code in every status and changes nothing. -/
def Obligations.GetstReturnsStatus : Prop :=
  ∀ s : State,
    (s.status = .uninitialized → exec .getst s = onlyResponse s 0x00000#20) ∧
    (s.status = .initialized → exec .getst s = onlyResponse s 0x00001#20) ∧
    (s.status = .error → exec .getst s = onlyResponse s 0x00002#20)

/-! ### Framebuffer -/

/-- 42_framebuffer R150: bit 15 - cx % 16 of entry 8 cy + cx / 16 becomes `lit`; no other bit changes; GETPX of the pixel
then answers `lit`. -/
def Obligations.SetpxWritesOneBit : Prop :=
  ∀ (cx cy : Byte) (lit : Bool) (s : State),
    (s.status = .initialized → cx.toNat < 128 → cy.toNat < 64 → ∃ t, exec (.setpx cx cy lit) s = .next t ∧
      (∀ (i : EntryIndex) (b : Nat), b < 16 → (fbRead t i).getLsbD b =
        if i.toNat = 8 * cy.toNat + cx.toNat / 16 ∧ b = 15 - cx.toNat % 16 then lit else (fbRead s i).getLsbD b) ∧
      exec (.getpx cx cy) t = onlyResponse t (if lit then 0x00001#20 else 0x00000#20) ∧
      t.responses = s.responses ++ [0x00000#20] ∧ SameControl s t ∧ t.imode = s.imode ∧ t.trace = s.trace) ∧
    (s.status ≠ .initialized → exec (.setpx cx cy lit) s = onlyResponse s 0x90000#20) ∧
    (s.status = .initialized → 128 ≤ cx.toNat ∨ 64 ≤ cy.toNat →
      exec (.setpx cx cy lit) s = onlyResponse s 0xB0000#20)

/-- 42_framebuffer R151: the response is the pixel's bit, and nothing else changes. -/
def Obligations.GetpxReadsOneBit : Prop :=
  ∀ (cx cy : Byte) (s : State),
    (s.status = .initialized → cx.toNat < 128 → cy.toNat < 64 →
      ∀ i : EntryIndex, i.toNat = 8 * cy.toNat + cx.toNat / 16 → exec (.getpx cx cy) s =
        onlyResponse s (if (fbRead s i).getLsbD (15 - cx.toNat % 16) then 0x00001#20 else 0x00000#20)) ∧
    (s.status ≠ .initialized → exec (.getpx cx cy) s = onlyResponse s 0x90000#20) ∧
    (s.status = .initialized → 128 ≤ cx.toNat ∨ 64 ≤ cy.toNat → exec (.getpx cx cy) s = onlyResponse s 0xB0000#20)

/-- 42_framebuffer R152: the pixel's bit is inverted; no other bit changes; a second TGLPX of the pixel restores the whole
framebuffer. -/
def Obligations.TglpxInvertsOneBit : Prop :=
  ∀ (cx cy : Byte) (s : State),
    (s.status = .initialized → cx.toNat < 128 → cy.toNat < 64 → ∃ t u, exec (.tglpx cx cy) s = .next t ∧
      (∀ (i : EntryIndex) (b : Nat), b < 16 → (fbRead t i).getLsbD b =
        if i.toNat = 8 * cy.toNat + cx.toNat / 16 ∧ b = 15 - cx.toNat % 16 then !(fbRead s i).getLsbD b
        else (fbRead s i).getLsbD b) ∧
      t.responses = s.responses ++ [0x00000#20] ∧ SameControl s t ∧ t.imode = s.imode ∧ t.trace = s.trace ∧
      exec (.tglpx cx cy) t = .next u ∧ u.fb = s.fb) ∧
    (s.status ≠ .initialized → exec (.tglpx cx cy) s = onlyResponse s 0x90000#20) ∧
    (s.status = .initialized → 128 ≤ cx.toNat ∨ 64 ≤ cy.toNat → exec (.tglpx cx cy) s = onlyResponse s 0xB0000#20)

/-- 42_framebuffer R153: the entry becomes `value`; no other entry changes; pixel 16 page + k of the row is then bit 15 - k
of `value`, so bit 15 is the leftmost and bit 0 the rightmost. -/
def Obligations.SetpgWritesOneEntry : Prop :=
  ∀ (page cy : Byte) (value : Page) (s : State),
    (s.status = .initialized → page.toNat < 8 → cy.toNat < 64 → ∃ t, exec (.setpg page cy value) s = .next t ∧
      (∀ i : EntryIndex, fbRead t i = if i.toNat = 8 * cy.toNat + page.toNat then value else fbRead s i) ∧
      (∀ (k : Nat) (cx : Byte), k < 16 → cx.toNat = 16 * page.toNat + k →
        exec (.getpx cx cy) t = onlyResponse t (if value.getLsbD (15 - k) then 0x00001#20 else 0x00000#20)) ∧
      t.responses = s.responses ++ [0x00000#20] ∧ SameControl s t ∧ t.imode = s.imode ∧ t.trace = s.trace) ∧
    (s.status ≠ .initialized → exec (.setpg page cy value) s = onlyResponse s 0x90000#20) ∧
    (s.status = .initialized → 8 ≤ page.toNat ∨ 64 ≤ cy.toNat →
      exec (.setpg page cy value) s = onlyResponse s 0xB0000#20)

/-- 42_framebuffer R154: the response carries the entry, and nothing else changes. -/
def Obligations.GetpgReadsOneEntry : Prop :=
  ∀ (page cy : Byte) (s : State),
    (s.status = .initialized → page.toNat < 8 → cy.toNat < 64 →
      ∀ i : EntryIndex, i.toNat = 8 * cy.toNat + page.toNat →
        exec (.getpg page cy) s = onlyResponse s (BitVec.ofNat 20 (fbRead s i).toNat)) ∧
    (s.status ≠ .initialized → exec (.getpg page cy) s = onlyResponse s 0x90000#20) ∧
    (s.status = .initialized → 8 ≤ page.toNat ∨ 64 ≤ cy.toNat → exec (.getpg page cy) s = onlyResponse s 0xB0000#20)

/-- 42_framebuffer R155: the entry is XORed with the mask; a zero mask changes nothing; the same mask again restores the
framebuffer; an out-of-range page fails whatever the mask. -/
def Obligations.TglpgXorsOneEntry : Prop :=
  ∀ (page cy : Byte) (xorMask : Page) (s : State),
    (s.status = .initialized → page.toNat < 8 → cy.toNat < 64 → ∃ t u, exec (.tglpg page cy xorMask) s = .next t ∧
      (∀ i : EntryIndex, fbRead t i =
        if i.toNat = 8 * cy.toNat + page.toNat then fbRead s i ^^^ xorMask else fbRead s i) ∧
      (xorMask = 0#16 → t.fb = s.fb) ∧
      t.responses = s.responses ++ [0x00000#20] ∧ SameControl s t ∧ t.imode = s.imode ∧ t.trace = s.trace ∧
      exec (.tglpg page cy xorMask) t = .next u ∧ u.fb = s.fb) ∧
    (s.status ≠ .initialized → exec (.tglpg page cy xorMask) s = onlyResponse s 0x90000#20) ∧
    (s.status = .initialized → 8 ≤ page.toNat ∨ 64 ≤ cy.toNat →
      exec (.tglpg page cy xorMask) s = onlyResponse s 0xB0000#20)

/-- 42_framebuffer R156: every entry becomes all ones or all zeros; after all ones every valid pixel reads on. -/
def Obligations.SetallFillsEveryEntry : Prop :=
  ∀ (lit : Bool) (s : State),
    (s.status = .initialized → ∃ t, exec (.setall lit) s = .next t ∧
      (∀ i : EntryIndex, fbRead t i = if lit then 0xFFFF#16 else 0x0000#16) ∧
      (lit = true → ∀ cx cy : Byte, cx.toNat < 128 → cy.toNat < 64 →
        exec (.getpx cx cy) t = onlyResponse t 0x00001#20) ∧
      t.responses = s.responses ++ [0x00000#20] ∧ SameControl s t ∧ t.imode = s.imode ∧ t.trace = s.trace) ∧
    (s.status ≠ .initialized → exec (.setall lit) s = onlyResponse s 0x90000#20)

/-- 42_framebuffer R157: every entry is complemented; a second TGLALL restores the framebuffer. -/
def Obligations.TglallComplementsEveryEntry : Prop :=
  ∀ s : State,
    (s.status = .initialized → ∃ t u, exec .tglall s = .next t ∧
      (∀ i : EntryIndex, fbRead t i = fbRead s i ^^^ 0xFFFF#16) ∧
      t.responses = s.responses ++ [0x00000#20] ∧ SameControl s t ∧ t.imode = s.imode ∧ t.trace = s.trace ∧
      exec .tglall t = .next u ∧ u.fb = s.fb) ∧
    (s.status ≠ .initialized → exec .tglall s = onlyResponse s 0x90000#20)

/-- 95_test_vectors S1: after SETPX, GETPX of the same pixel returns what was set, and GETPX of every other pixel returns
what it returned before. -/
def Obligations.PixelReadsBackAndOthersStay : Prop :=
  ∀ (cx cy : Byte) (lit : Bool) (s : State), s.status = .initialized → cx.toNat < 128 → cy.toNat < 64 →
    ∃ t, exec (.setpx cx cy lit) s = .next t ∧
      exec (.getpx cx cy) t = onlyResponse t (if lit then 0x00001#20 else 0x00000#20) ∧
      ∀ (x y : Byte) (r : ResponseWord), (x ≠ cx ∨ y ≠ cy) → exec (.getpx x y) s = onlyResponse s r →
        exec (.getpx x y) t = onlyResponse t r

/-! ### Coordinate Translator -/

/-- 41_translator R130: the fold's values, and that it is a bijection from the 8 × 64 logical page space onto the 16 × 32
controller space. -/
def Obligations.FoldIsABijection : Prop :=
  (∀ page cy : Nat, page < 8 → cy < 64 →
    (fold page cy).cpage.toNat = (if 32 ≤ cy then page + 8 else page) ∧
    (fold page cy).crow.toNat = (if 32 ≤ cy then cy - 32 else cy)) ∧
  (∀ page cy page' cy' : Nat, page < 8 → cy < 64 → page' < 8 → cy' < 64 → fold page cy = fold page' cy' →
    page = page' ∧ cy = cy') ∧
  (∀ p : ControllerPlace, ∃ page cy : Nat, page < 8 ∧ cy < 64 ∧ fold page cy = p)

/-- 41_translator R131. -/
def Obligations.PixelTranslation : Prop :=
  ∀ cx cy : Byte,
    (cx.toNat < 128 → cy.toNat < 64 → ∃ p, pixelToBufferIndex cx cy = some p ∧
      p.bufferIndex.toNat = 8 * cy.toNat + cx.toNat / 16 ∧ p.bitOffset.toNat = 15 - cx.toNat % 16 ∧
      p.cpage = (fold (cx.toNat / 16) cy.toNat).cpage ∧ p.crow = (fold (cx.toNat / 16) cy.toNat).crow) ∧
    (128 ≤ cx.toNat ∨ 64 ≤ cy.toNat → pixelToBufferIndex cx cy = none)

/-- 41_translator R132 and 95_test_vectors S4: the index is 8 cy + page, the map is a bijection onto 0..511, rows 0..31
map into [0, 256) and rows 32..63 into [256, 512); outside the page space it fails; the pixel translation agrees with the
page translation at page cx / 16 on all they share, failures included. -/
def Obligations.PageTranslation : Prop :=
  (∀ page cy : Byte, page.toNat < 8 → cy.toNat < 64 → ∃ p, pageToBufferIndex page cy = some p ∧
    p.bufferIndex.toNat = 8 * cy.toNat + page.toNat ∧ (p.bufferIndex.toNat < 256 ↔ cy.toNat < 32) ∧
    p.cpage = (fold page.toNat cy.toNat).cpage ∧ p.crow = (fold page.toNat cy.toNat).crow) ∧
  (∀ i : EntryIndex, ∃ page cy : Byte, ∃ p, pageToBufferIndex page cy = some p ∧ p.bufferIndex = i) ∧
  (∀ (page cy page' cy' : Byte) (p p' : PagePlace), pageToBufferIndex page cy = some p →
    pageToBufferIndex page' cy' = some p' → p.bufferIndex = p'.bufferIndex → page = page' ∧ cy = cy') ∧
  (∀ page cy : Byte, 8 ≤ page.toNat ∨ 64 ≤ cy.toNat → pageToBufferIndex page cy = none) ∧
  (∀ cx cy : Byte, (pixelToBufferIndex cx cy).map (fun p => (p.bufferIndex, p.cpage, p.crow)) =
    (pageToBufferIndex (BitVec.ofNat 8 (cx.toNat / 16)) cy).map fun p => (p.bufferIndex, p.cpage, p.crow))

/-- 41_translator R133. -/
def Obligations.NarrowTextTranslation : Prop :=
  ∀ cx cy : Byte,
    (cx.toNat < 16 → cy.toNat < 8 → ∃ p, textToWideTextAddSpace cx cy = some p ∧
      p.wideCx.toNat = cx.toNat / 2 + (if 4 ≤ cy.toNat then 8 else 0) ∧
      p.wideCy.toNat = (if 4 ≤ cy.toNat then cy.toNat - 4 else cy.toNat) ∧
      (p.addSpace = true ↔ cx.toNat % 2 = 1)) ∧
    (16 ≤ cx.toNat ∨ 8 ≤ cy.toNat → textToWideTextAddSpace cx cy = none)

/-- 41_translator R134. -/
def Obligations.WideTextTranslation : Prop :=
  ∀ cx cy : Byte,
    (cx.toNat < 8 → cy.toNat < 8 → ∃ p, wideTextToWideText cx cy = some p ∧
      p.wideCx.toNat = cx.toNat + (if 4 ≤ cy.toNat then 8 else 0) ∧
      p.wideCy.toNat = (if 4 ≤ cy.toNat then cy.toNat - 4 else cy.toNat)) ∧
    (8 ≤ cx.toNat ∨ 8 ≤ cy.toNat → wideTextToWideText cx cy = none)

/-- 41_translator R134, its relation to R133: the wide-text translation of cx in 0..7 is the narrow one of column 2 cx,
without the filler space; failures included. -/
def Obligations.WideTextIsNarrowTextAtEvenColumn : Prop :=
  ∀ cx cy : Byte, cx.toNat < 8 →
    (wideTextToWideText cx cy).map (fun p => (p.wideCx, p.wideCy, false)) =
      (textToWideTextAddSpace (BitVec.ofNat 8 (2 * cx.toNat)) cy).map fun p => (p.wideCx, p.wideCy, p.addSpace)

/-! ### Bus Transmitter -/

/-- 43_bus R180: `sendByte` appends exactly fifteen events: the fixed sequence, with the eight data lines in
DATA_LINE_ORDER, each written once with its bit; it changes nothing else. -/
def Obligations.SendByteIsFifteenEvents : Prop :=
  ∀ (b : BusByte) (s : State), s.cfg.wf = true → ∃ lines : List Event,
    (sendByte b s).trace = s.trace ++
      ([.writePin (pin s 9) false, .writePin (pin s 8) b.isData, .sleepMicros .settle] ++ lines ++
        [.writePin (pin s 9) true, .sleepMicros .settle, .writePin (pin s 9) false, .sleepMicros b.postDelay]) ∧
    lines = s.cfg.dataLineOrder.map (fun k => .writePin (pin s (slotD k)) (b.byte.getLsbD k.val)) ∧
    lines.Perm ((List.finRange 8).map fun k => .writePin (pin s (slotD k)) (b.byte.getLsbD k.val)) ∧
    (sendByte b s).trace.length = s.trace.length + 15 ∧
    SameControl s (sendByte b s) ∧ (sendByte b s).imode = s.imode ∧ SameFramebuffer s (sendByte b s) ∧
    (sendByte b s).responses = s.responses

/-- 10_state R32, 43_bus R180: after a bus byte, where the ten lines are distinct, each data line holds its bit of the
byte, the register-select line tells data from command, and the enable line is low. -/
def Obligations.LinesAfterBusByte : Prop :=
  ∀ (b : BusByte) (s : State), s.cfg.wf = true →
    (∀ j k : Fin 11, j.val < 10 → k.val < 10 → pin s j = pin s k → j = k) →
    (∀ k : Fin 8, lineLevel (pin s (slotD k)) (sendByte b s).trace = some (b.byte.getLsbD k.val)) ∧
    lineLevel (pin s slotRS) (sendByte b s).trace = some b.isData ∧
    lineLevel (pin s slotE) (sendByte b s).trace = some false

/-- 43_bus R182: the mode-select byte, and `imode`. -/
def Obligations.SelectModeSendsOneByte : Prop :=
  ∀ s : State,
    (selectInstructionMode false s).trace = s.trace ++ busEvents s ⟨false, s.cfg.cmdBasic, .cmdLong⟩ ∧
    (selectInstructionMode false s).imode = .basic ∧
    (selectInstructionMode true s).trace = s.trace ++
      busEvents s ⟨false, if s.gfxEn then s.cfg.cmdExtended ||| s.cfg.gfxBit else s.cfg.cmdExtended, .cmdLong⟩ ∧
    (selectInstructionMode true s).imode = .extended ∧
    ∀ e : Bool, SameControl s (selectInstructionMode e s) ∧ SameFramebuffer s (selectInstructionMode e s) ∧
      (selectInstructionMode e s).responses = s.responses

/-- 43_bus R181: what a successful command other than BEGIN sends is a list of bus bytes, of which the mode select, where
the command has one, comes first and has T_CMD_LONG, and every other byte has T_CMD_SHORT. -/
def Obligations.LongDelayOnlyAfterModeSelect : Prop :=
  ∀ (i : Instr) (s : State), completes i s = true → i ≠ .begin → ∃ (t : State) (ms bs : List BusByte),
    exec i s = .next t ∧ t.trace = s.trace ++ eventsOf s (ms ++ bs) ∧
    (selectsMode i = none → ms = []) ∧
    (∀ m, selectsMode i = some m → ms = [modeSelect s.cfg s.gfxEn (decide (m = .extended))]) ∧
    (∀ b ∈ ms, b.postDelay = .cmdLong ∧ b.isData = false) ∧ (∀ b ∈ bs, b.postDelay = .cmdShort)

/-- 70_reset R302: how many bus bytes each successful command other than BEGIN sends, and the least time they take; with
the fill counts of 45_text R224 none sends more than PNTALL's 1153. -/
def Obligations.BusByteCountsAndDurations : Prop :=
  ∀ (i : Instr) (s : State), s.cfg.wf = true → completes i s = true → i ≠ .begin →
    ∃ (t : State) (es : List Event), exec i s = .next t ∧ t.trace = s.trace ++ es ∧
      es.length = 15 * busByteCount s.cfg i ∧
      minimumMicros s.cfg es = 2 * busByteCount s.cfg i * s.cfg.tSettle +
        (if selectsMode i = none then busByteCount s.cfg i * s.cfg.tCmdShort
          else (busByteCount s.cfg i - 1) * s.cfg.tCmdShort + s.cfg.tCmdLong) ∧
      (s.cfg.fillNarrow = 32 → busByteCount s.cfg i ≤ 1153)

/-! ### Paint -/

/-- 44_paint R200: five bus bytes, the entry's high byte before its low byte, sent to the folded address. -/
def Obligations.PntpgSendsOnePage : Prop :=
  ∀ (page cy : Byte) (s : State),
    (s.status = .initialized → page.toNat < 8 → cy.toNat < 64 →
      ∀ i : EntryIndex, i.toNat = 8 * cy.toNat + page.toNat → ∃ t, exec (.pntpg page cy) s = .next t ∧
        t.trace = s.trace ++ eventsOf s
          [⟨false, s.cfg.cmdExtended ||| (if s.gfxEn then s.cfg.gfxBit else 0#8), .cmdLong⟩,
           ⟨false, s.cfg.addrFlag ||| BitVec.ofNat 8 (if 32 ≤ cy.toNat then cy.toNat - 32 else cy.toNat), .cmdShort⟩,
           ⟨false, s.cfg.addrFlag ||| BitVec.ofNat 8 (if 32 ≤ cy.toNat then page.toNat + 8 else page.toNat), .cmdShort⟩,
           ⟨true, (fbRead s i).extractLsb' 8 8, .cmdShort⟩, ⟨true, (fbRead s i).extractLsb' 0 8, .cmdShort⟩] ∧
        (s.cfg.wf = true → t.trace.length = s.trace.length + 75) ∧
        t.imode = .extended ∧ t.responses = s.responses ++ [0x00000#20] ∧ SameControl s t ∧ SameFramebuffer s t) ∧
    (s.status ≠ .initialized → exec (.pntpg page cy) s = onlyResponse s 0x90000#20) ∧
    (s.status = .initialized → 8 ≤ page.toNat ∨ 64 ≤ cy.toNat → exec (.pntpg page cy) s = onlyResponse s 0xB0000#20)

/-- 44_paint R201: 1153 bus bytes: the mode select, then for each row r its vertical address r and horizontal address 0,
then the eight entries of the row, the high byte of entry 8 r + p at place 1 + 18 r + 2 + 2 p and its low byte next. -/
def Obligations.PntallStreamsEveryEntry : Prop :=
  ∀ s : State,
    (s.status = .initialized → ∃ (t : State) (bs : List BusByte), exec .pntall s = .next t ∧
      t.trace = s.trace ++ eventsOf s bs ∧ bs.length = 1153 ∧
      bs[0]? = some ⟨false, s.cfg.cmdExtended ||| (if s.gfxEn then s.cfg.gfxBit else 0#8), .cmdLong⟩ ∧
      (∀ r : Nat, r < 64 → bs[1 + 18 * r]? = some ⟨false, s.cfg.addrFlag ||| BitVec.ofNat 8 r, .cmdShort⟩ ∧
        bs[2 + 18 * r]? = some ⟨false, s.cfg.addrFlag, .cmdShort⟩) ∧
      (∀ (r p : Nat) (i : EntryIndex), r < 64 → p < 8 → i.toNat = 8 * r + p →
        bs[3 + 18 * r + 2 * p]? = some ⟨true, (fbRead s i).extractLsb' 8 8, .cmdShort⟩ ∧
        bs[4 + 18 * r + 2 * p]? = some ⟨true, (fbRead s i).extractLsb' 0 8, .cmdShort⟩) ∧
      (s.cfg.wf = true → t.trace.length = s.trace.length + 17295) ∧
      t.imode = .extended ∧ t.responses = s.responses ++ [0x00000#20] ∧ SameControl s t ∧ SameFramebuffer s t) ∧
    (s.status ≠ .initialized → exec .pntall s = onlyResponse s 0x90000#20)

/-- 44_paint R202: PNTPX is PNTPG on page cx / 16, in every state; it completes for every pixel in range. That it fails
with OutOfRange exactly for cx ≥ 128 or cy ≥ 64 is the sentence R202 marks [derived: from 41_translator.md rule R132],
and the pixel row of 60_exceptions R251. -/
def Obligations.PntpxPaintsContainingPage : Prop :=
  ∀ (cx cy : Byte) (s : State),
    exec (.pntpx cx cy) s = exec (.pntpg (BitVec.ofNat 8 (cx.toNat / 16)) cy) s ∧
    (s.status = .initialized → cx.toNat < 128 → cy.toNat < 64 → ∃ (t : State) (bs : List BusByte),
      exec (.pntpx cx cy) s = .next t ∧ t.trace = s.trace ++ eventsOf s bs ∧ bs.length = 5 ∧ t.imode = .extended ∧
      t.responses = s.responses ++ [0x00000#20] ∧ SameControl s t ∧ SameFramebuffer s t) ∧
    (s.status ≠ .initialized → exec (.pntpx cx cy) s = onlyResponse s 0x90000#20) ∧
    (s.status = .initialized → 128 ≤ cx.toNat ∨ 64 ≤ cy.toNat → exec (.pntpx cx cy) s = onlyResponse s 0xB0000#20)

/-- 44_paint R203: SETALL 0 then PNTALL: every entry is 0x0000 and 1153 bus bytes have been sent; not Initialized: both
fail and nothing changes. -/
def Obligations.ClrgfxClearsAndPaints : Prop :=
  Pseudo.clrgfx.expand = [.setall false, .pntall] ∧ ∀ s : State,
    (s.status = .initialized → ∃ (t u : State) (bs : List BusByte), exec (.setall false) s = .next t ∧
      exec .pntall t = .next u ∧ (∀ i : EntryIndex, fbRead u i = 0x0000#16) ∧
      u.trace = s.trace ++ eventsOf s bs ∧ bs.length = 1153) ∧
    (s.status ≠ .initialized → exec (.setall false) s = onlyResponse s 0x90000#20 ∧
      exec .pntall s = onlyResponse s 0x90000#20)

/-! ### Text -/

/-- 45_text R220: mode select, home byte (0x80 and 0x90 for native rows 0 and 1, the open bytes for 2 and 3), one
cursor-right for each wide column, and the space for an odd column. -/
def Obligations.SettcPositionsCursor : Prop :=
  ∀ (cx cy : Byte) (s : State),
    (s.status = .initialized → cx.toNat < 16 → cy.toNat < 8 → ∃ t, exec (.settc cx cy) s = .next t ∧
      t.trace = s.trace ++ eventsOf s
        ([⟨false, s.cfg.cmdBasic, .cmdLong⟩,
          ⟨false, if cy.toNat % 4 = 0 then 0x80#8 else if cy.toNat % 4 = 1 then 0x90#8
            else if cy.toNat % 4 = 2 then s.cfg.homeCmd2 else s.cfg.homeCmd3, .cmdShort⟩] ++
          List.replicate (cx.toNat / 2 + if 4 ≤ cy.toNat then 8 else 0) ⟨false, s.cfg.cmdCursorRight, .cmdShort⟩ ++
          (if cx.toNat % 2 = 1 then [⟨true, s.cfg.charSpace, .cmdShort⟩] else [])) ∧
      t.imode = .basic ∧ t.responses = s.responses ++ [0x00000#20] ∧ SameControl s t ∧ SameFramebuffer s t) ∧
    (s.status ≠ .initialized → exec (.settc cx cy) s = onlyResponse s 0x90000#20) ∧
    (s.status = .initialized → 16 ≤ cx.toNat ∨ 8 ≤ cy.toNat → exec (.settc cx cy) s = onlyResponse s 0xB0000#20)

/-- 45_text R221: the same without the space. -/
def Obligations.SetwtcPositionsCursor : Prop :=
  ∀ (cx cy : Byte) (s : State),
    (s.status = .initialized → cx.toNat < 8 → cy.toNat < 8 → ∃ t, exec (.setwtc cx cy) s = .next t ∧
      t.trace = s.trace ++ eventsOf s
        ([⟨false, s.cfg.cmdBasic, .cmdLong⟩,
          ⟨false, if cy.toNat % 4 = 0 then 0x80#8 else if cy.toNat % 4 = 1 then 0x90#8
            else if cy.toNat % 4 = 2 then s.cfg.homeCmd2 else s.cfg.homeCmd3, .cmdShort⟩] ++
          List.replicate (cx.toNat + if 4 ≤ cy.toNat then 8 else 0) ⟨false, s.cfg.cmdCursorRight, .cmdShort⟩) ∧
      t.imode = .basic ∧ t.responses = s.responses ++ [0x00000#20] ∧ SameControl s t ∧ SameFramebuffer s t) ∧
    (s.status ≠ .initialized → exec (.setwtc cx cy) s = onlyResponse s 0x90000#20) ∧
    (s.status = .initialized → 8 ≤ cx.toNat ∨ 8 ≤ cy.toNat → exec (.setwtc cx cy) s = onlyResponse s 0xB0000#20)

/-- 45_text R221, 41_translator R134: SETWTC cx, cy and SETTC 2 cx, cy end alike, for every cx in 0..7 and every cy. -/
def Obligations.SetwtcIsSettcAtEvenColumn : Prop :=
  ∀ (cx cy : Byte) (s : State), cx.toNat < 8 →
    exec (.setwtc cx cy) s = exec (.settc (BitVec.ofNat 8 (2 * cx.toNat)) cy) s

/-- 45_text R222. -/
def Obligations.PrtcSendsOneByte : Prop :=
  ∀ (c : Byte) (s : State),
    (s.status = .initialized → ∃ t, exec (.prtc c) s = .next t ∧
      t.trace = s.trace ++ eventsOf s [⟨true, c, .cmdShort⟩] ∧
      t.imode = s.imode ∧ t.responses = s.responses ++ [0x00000#20] ∧ SameControl s t ∧ SameFramebuffer s t) ∧
    (s.status ≠ .initialized → exec (.prtc c) s = onlyResponse s 0x90000#20)

/-- 45_text R223: the high byte first; no mode select. -/
def Obligations.PrtwSendsTwoBytes : Prop :=
  ∀ (w : Page) (s : State),
    (s.status = .initialized → ∃ t, exec (.prtw w) s = .next t ∧
      t.trace = s.trace ++ eventsOf s
        [⟨true, w.extractLsb' 8 8, .cmdShort⟩, ⟨true, w.extractLsb' 0 8, .cmdShort⟩] ∧
      t.imode = s.imode ∧ t.responses = s.responses ++ [0x00000#20] ∧ SameControl s t ∧ SameFramebuffer s t) ∧
    (s.status ≠ .initialized → exec (.prtw w) s = onlyResponse s 0x90000#20)

/-- 45_text R223, its equivalence: the events of PRTW are those of PRTC of the high byte followed by PRTC of the low
byte. -/
def Obligations.PrtwIsPrtcTwice : Prop :=
  ∀ (w : Page) (s : State), s.status = .initialized → ∃ t u v, exec (.prtw w) s = .next t ∧
    exec (.prtc (w.extractLsb' 8 8)) s = .next u ∧ exec (.prtc (w.extractLsb' 0 8)) u = .next v ∧ v.trace = t.trace ∧
    v.imode = t.imode ∧ v.fb = t.fb ∧ SameControl t v

/-- 45_text R224. -/
def Obligations.FillcFillsBothRows : Prop :=
  ∀ (c : Byte) (s : State),
    (s.status = .initialized → ∃ t, exec (.fillc c) s = .next t ∧
      t.trace = s.trace ++ eventsOf s
        ([⟨false, s.cfg.cmdBasic, .cmdLong⟩, ⟨false, 0x80#8, .cmdShort⟩] ++
          List.replicate s.cfg.fillNarrow ⟨true, c, .cmdShort⟩ ++ [⟨false, 0x90#8, .cmdShort⟩] ++
          List.replicate s.cfg.fillNarrow ⟨true, c, .cmdShort⟩) ∧
      t.imode = .basic ∧ t.responses = s.responses ++ [0x00000#20] ∧ SameControl s t ∧ SameFramebuffer s t) ∧
    (s.status ≠ .initialized → exec (.fillc c) s = onlyResponse s 0x90000#20)

/-- 45_text R225: after the mode select, each row is its home byte and FILL_WIDE times the two bytes of the character; byte
2 k of a row is the high one and byte 2 k + 1 the low one. -/
def Obligations.FillwFillsBothRows : Prop :=
  ∀ (w : Page) (s : State),
    (s.status = .initialized → ∃ (t : State) (row : List BusByte), exec (.fillw w) s = .next t ∧
      t.trace = s.trace ++ eventsOf s
        ([⟨false, s.cfg.cmdBasic, .cmdLong⟩, ⟨false, 0x80#8, .cmdShort⟩] ++ row ++ [⟨false, 0x90#8, .cmdShort⟩] ++ row) ∧
      row.length = 2 * s.cfg.fillWide ∧
      (∀ k : Nat, k < s.cfg.fillWide → row[2 * k]? = some ⟨true, w.extractLsb' 8 8, .cmdShort⟩ ∧
        row[2 * k + 1]? = some ⟨true, w.extractLsb' 0 8, .cmdShort⟩) ∧
      t.imode = .basic ∧ t.responses = s.responses ++ [0x00000#20] ∧ SameControl s t ∧ SameFramebuffer s t) ∧
    (s.status ≠ .initialized → exec (.fillw w) s = onlyResponse s 0x90000#20)

/-- 45_text R226, 30_encoding R90: the commands of PRTTXT with the codes `cs`, and of PRTTXTZ with `cs` before the first
zero code and anything after it, presented to an Initialized block, send each code of `cs` in order, one bus byte each, and
nothing else, and every response is success; presented to a block that is not Initialized they send nothing, change nothing,
and each fails. That a PRTTXTZ without a zero code sends all of its codes is the model's choice (log entry 13), as is the
port (log entry 5). -/
def Obligations.TextRunSendsEachCode : Prop :=
  ∀ (cs : List Byte) (p : Pseudo) (s : State), s.commands = [] →
    (p = .prttxt cs ∨ (0#8 ∉ cs ∧ (p = .prttxtz cs ∨ ∃ rest, p = .prttxtz (cs ++ 0#8 :: rest)))) →
    (s.status = .initialized → ∃ t, core.run cs.length (presentPseudo p s) = .next t ∧
      t.trace = s.trace ++ eventsOf s (cs.map fun c => ⟨true, c, .cmdShort⟩) ∧
      t.responses = s.responses ++ List.replicate cs.length 0x00000#20 ∧ t.imode = s.imode ∧ SameControl s t ∧
      SameFramebuffer s t) ∧
    (s.status ≠ .initialized → core.run cs.length (presentPseudo p s) =
      .next { s with responses := s.responses ++ List.replicate cs.length 0x90000#20 })

/-- 45_text R226, 30_encoding R90: the same of PRTWTXT and PRTWTXTZ: two bus bytes for each 16-bit code, high byte first.
That a PRTWTXTZ without a zero code sends all of its codes is the model's choice (log entry 13), as is the port (log
entry 5). -/
def Obligations.WideTextRunSendsEachCode : Prop :=
  ∀ (ws : List Page) (p : Pseudo) (s : State), s.commands = [] →
    (p = .prtwtxt ws ∨ (0#16 ∉ ws ∧ (p = .prtwtxtz ws ∨ ∃ rest, p = .prtwtxtz (ws ++ 0#16 :: rest)))) →
    (s.status = .initialized → ∃ t, core.run ws.length (presentPseudo p s) = .next t ∧
      t.trace = s.trace ++ eventsOf s (ws.flatMap fun w =>
        [⟨true, w.extractLsb' 8 8, .cmdShort⟩, ⟨true, w.extractLsb' 0 8, .cmdShort⟩]) ∧
      t.responses = s.responses ++ List.replicate ws.length 0x00000#20 ∧ t.imode = s.imode ∧ SameControl s t ∧
      SameFramebuffer s t) ∧
    (s.status ≠ .initialized → core.run ws.length (presentPseudo p s) =
      .next { s with responses := s.responses ++ List.replicate ws.length 0x90000#20 })

/-- 70_reset R281: from every state, CONFIG with ten valid identifiers, then BEGIN: the slots 0..9 hold the identifiers
given and slot 10 what it held, the block is Initialized, and exactly ten direction events have been emitted, one for each
identifier given, in the order the chip has; the framebuffer and `gfx_en` survive (70_reset R295). The port is the
model's own, log entry 5. -/
def Obligations.BootSequenceInitializes : Prop :=
  ∀ (d0 d1 d2 d3 d4 d5 d6 d7 rs e : Byte) (s : State), s.commands = [] → s.cfg.wf = true →
    (∀ id ∈ [d0, d1, d2, d3, d4, d5, d6, d7, rs, e], id.toNat ≤ 0x7F) →
    ∃ (t : State) (es : List Event),
      core.run 11 (present [encode .begin] (presentPseudo (.config d0 d1 d2 d3 d4 d5 d6 d7 rs e) s)) = .next t ∧
      (List.finRange 10).map (fun k => pin t (requiredSlot k)) = [d0, d1, d2, d3, d4, d5, d6, d7, rs, e] ∧
      pin t 10 = pin s 10 ∧ t.status = .initialized ∧ t.commands = [] ∧ t.trace = s.trace ++ es ∧
      es.Perm ([d0, d1, d2, d3, d4, d5, d6, d7, rs, e].map fun p => .setPinMode p .output) ∧
      es = t.cfg.pinmodeOrder.map (fun k => .setPinMode (pin t (requiredSlot k)) .output) ∧ t.cfg = s.cfg ∧
      t.responses = s.responses ++ List.replicate 11 0x00000#20 ∧ t.gfxEn = s.gfxEn ∧ SameFramebuffer s t
end

