-- ==== Sys2Proof/Laws/Decode.lean ====
section
/-! SUPPORT. The bits and fields of a packed word, and a packed word under a mask. -/

namespace Sys2Proof

/-- Bit by bit, a packed word is its four fields (30_encoding R80). -/
theorem getLsbD_packWord (op a b : Byte) (v : Page) (i : Nat) :
    (packWord op a b v).getLsbD i =
      if i < 16 then v.getLsbD i else if i < 24 then b.getLsbD (i - 16)
      else if i < 32 then a.getLsbD (i - 24) else op.getLsbD (i - 32) := by
  change BitVec.getLsbD (w := 8 + 8 + 8 + 16) (op ++ a ++ b ++ v) i = _
  simp only [BitVec.getLsbD_append]
  by_cases h16 : i < 16
  · simp [h16]
  by_cases h24 : i < 24
  · simp [h16, h24, show i - 16 < 8 by omega]
  by_cases h32 : i < 32
  · simp [h16, h24, h32, show ¬ i - 16 < 8 by omega, show i - 24 < 8 by omega, show i - 16 - 8 = i - 24 by omega]
  · simp [h16, h24, h32, show ¬ i - 16 < 8 by omega, show ¬ i - 16 - 8 < 8 by omega,
      show i - 16 - 8 - 8 = i - 32 by omega]

@[simp] theorem fieldOP_packWord (op a b : Byte) (v : Page) : fieldOP (packWord op a b v) = op := by
  apply BitVec.eq_of_getLsbD_eq
  intro i hi
  simp [fieldOP, getLsbD_packWord, hi, show ¬ 32 + i < 16 by omega, show ¬ 32 + i < 24 by omega]

@[simp] theorem fieldA_packWord (op a b : Byte) (v : Page) : fieldA (packWord op a b v) = a := by
  apply BitVec.eq_of_getLsbD_eq
  intro i hi
  simp [fieldA, getLsbD_packWord, hi, show ¬ 24 + i < 16 by omega, show 24 + i < 32 by omega]

@[simp] theorem fieldB_packWord (op a b : Byte) (v : Page) : fieldB (packWord op a b v) = b := by
  apply BitVec.eq_of_getLsbD_eq
  intro i hi
  simp [fieldB, getLsbD_packWord, hi, show 16 + i < 24 by omega]

@[simp] theorem fieldV_packWord (op a b : Byte) (v : Page) : fieldV (packWord op a b v) = v := by
  apply BitVec.eq_of_getLsbD_eq
  intro i hi
  simp [fieldV, getLsbD_packWord, hi]

/-- Every word is the packing of its fields. -/
theorem packWord_fields (w : CommandWord) : packWord (fieldOP w) (fieldA w) (fieldB w) (fieldV w) = w := by
  apply BitVec.eq_of_getLsbD_eq
  intro i hi
  rw [getLsbD_packWord]
  simp only [fieldOP, fieldA, fieldB, fieldV, BitVec.getLsbD_extractLsb']
  by_cases h16 : i < 16
  · simp [h16]
  by_cases h24 : i < 24
  · simp [h16, h24, show i - 16 < 8 by omega, show 16 + (i - 16) = i by omega]
  by_cases h32 : i < 32
  · simp [h16, h24, h32, show i - 24 < 8 by omega, show 24 + (i - 24) = i by omega]
  · simp [h16, h24, h32, show i - 32 < 8 by omega, show 32 + (i - 32) = i by omega]

/-- A mask acts field by field. -/
theorem packWord_and (op a b op' a' b' : Byte) (v v' : Page) :
    packWord op a b v &&& packWord op' a' b' v' = packWord (op &&& op') (a &&& a') (b &&& b') (v &&& v') := by
  apply BitVec.eq_of_getLsbD_eq
  intro i hi
  simp only [BitVec.getLsbD_and, getLsbD_packWord]
  split
  · rfl
  split
  · rfl
  split <;> rfl

/-- Two packed words are equal exactly where their fields are. -/
theorem packWord_inj {op a b op' a' b' : Byte} {v v' : Page} :
    packWord op a b v = packWord op' a' b' v' ↔ op = op' ∧ a = a' ∧ b = b' ∧ v = v' := by
  constructor
  · intro h
    exact ⟨by simpa using congrArg fieldOP h, by simpa using congrArg fieldA h, by simpa using congrArg fieldB h,
      by simpa using congrArg fieldV h⟩
  · rintro ⟨rfl, rfl, rfl, rfl⟩
    rfl

/-! ### The opcode map -/

/-- Every row's mask covers OP, and its match bits are its opcode with every other field zero (30_encoding R86). -/
theorem opcodeTable_shape : ∀ r ∈ opcodeTable,
    r.mask = packWord 0xFF (fieldA r.mask) (fieldB r.mask) (fieldV r.mask) ∧ r.matchBits = packWord r.op 0 0 0 := by
  decide

/-- The OP values differ, so a row is known by its OP (30_encoding R86). -/
theorem opcodeTable_op_inj : ∀ r ∈ opcodeTable, ∀ r' ∈ opcodeTable, r.op = r'.op → r = r' := by
  decide

/-- A word matches a row where its OP is the row's and its other fields vanish under the row's mask. -/
theorem match_iff {w : CommandWord} {r : OpcodeRow} (hr : r ∈ opcodeTable) :
    w &&& r.mask = r.matchBits ↔ fieldOP w = r.op ∧ fieldA w &&& fieldA r.mask = 0 ∧
      fieldB w &&& fieldB r.mask = 0 ∧ fieldV w &&& fieldV r.mask = 0 := by
  obtain ⟨hmask, hmatch⟩ := opcodeTable_shape r hr
  have hones : fieldOP w &&& 0xFF = fieldOP w := by
    rw [show (0xFF : Byte) = BitVec.allOnes 8 by decide, BitVec.and_allOnes]
  conv_lhs => rw [← packWord_fields w, hmask, hmatch, packWord_and, packWord_inj, hones]

theorem findRow_mem {w : CommandWord} {r : OpcodeRow} (h : findRow w = some r) :
    r ∈ opcodeTable ∧ r.op = fieldOP w :=
  ⟨List.mem_of_find?_eq_some h, by simpa using List.find?_some h⟩

theorem findRow_eq_some {w : CommandWord} {r : OpcodeRow} (hr : r ∈ opcodeTable) (ho : r.op = fieldOP w) :
    findRow w = some r := by
  cases hf : findRow w with
  | none => exact absurd ho (by simpa using List.find?_eq_none.mp hf r hr)
  | some r' =>
    obtain ⟨hr', ho'⟩ := findRow_mem hf
    rw [opcodeTable_op_inj r' hr' r hr (ho'.trans ho.symm)]

/-- A word that matches a row decodes to what the row's mnemonic makes of its fields. -/
theorem decode_of_match {w : CommandWord} {r : OpcodeRow} (hr : r ∈ opcodeTable) (hm : w &&& r.mask = r.matchBits) :
    decode w = assemble r.mnemonic (fieldA w) (fieldB w) (fieldV w) := by
  rw [decode, findRow_eq_some hr ((match_iff hr).mp hm).1.symm]
  exact if_pos hm

end Sys2Proof
end

