-- ==== Sys2Proof/Laws/Operands.lean ====
section
/-! SUPPORT. What each translation function answers, inside and outside its logical space. -/

namespace Sys2Proof.Machine

theorem bufferIndexOf_toNat {page cy : Nat} (hp : page < 8) (hy : cy < 64) :
    (bufferIndexOf page cy).toNat = 8 * cy + page := by
  simp only [bufferIndexOf, BitVec.toNat_ofNat]
  omega

theorem pixelToBufferIndex_eq_none {cx cy : Byte} (h : 128 ≤ cx.toNat ∨ 64 ≤ cy.toNat) :
    pixelToBufferIndex cx cy = none := if_pos h

theorem pixelToBufferIndex_eq_some {cx cy : Byte} (hx : cx.toNat < 128) (hy : cy.toNat < 64) :
    pixelToBufferIndex cx cy = some ⟨bufferIndexOf (cx.toNat / 16) cy.toNat, (fold (cx.toNat / 16) cy.toNat).cpage,
      (fold (cx.toNat / 16) cy.toNat).crow, BitVec.ofNat 4 (15 - cx.toNat % 16)⟩ :=
  if_neg (by omega)

theorem pageToBufferIndex_eq_none {page cy : Byte} (h : 8 ≤ page.toNat ∨ 64 ≤ cy.toNat) :
    pageToBufferIndex page cy = none := if_pos h

theorem pageToBufferIndex_eq_some {page cy : Byte} (hp : page.toNat < 8) (hy : cy.toNat < 64) :
    pageToBufferIndex page cy = some ⟨bufferIndexOf page.toNat cy.toNat, (fold page.toNat cy.toNat).cpage,
      (fold page.toNat cy.toNat).crow⟩ :=
  if_neg (by omega)

theorem textToWideTextAddSpace_eq_none {cx cy : Byte} (h : 16 ≤ cx.toNat ∨ 8 ≤ cy.toNat) :
    textToWideTextAddSpace cx cy = none := if_pos h

theorem textToWideTextAddSpace_eq_some {cx cy : Byte} (hx : cx.toNat < 16) (hy : cy.toNat < 8) :
    textToWideTextAddSpace cx cy = some ⟨(textFold (cx.toNat / 2) cy.toNat).wideCx,
      (textFold (cx.toNat / 2) cy.toNat).wideCy, cx.getLsbD 0⟩ :=
  if_neg (by omega)

theorem wideTextToWideText_eq_none {cx cy : Byte} (h : 8 ≤ cx.toNat ∨ 8 ≤ cy.toNat) :
    wideTextToWideText cx cy = none := if_pos h

theorem wideTextToWideText_eq_some {cx cy : Byte} (hx : cx.toNat < 8) (hy : cy.toNat < 8) :
    wideTextToWideText cx cy = some (textFold cx.toNat cy.toNat) :=
  if_neg (by omega)

/-- The bit that a pixel's place names (41_translator R131). -/
theorem bitOffset_toNat (n : Nat) : (BitVec.ofNat 4 (15 - n % 16)).toNat = 15 - n % 16 := by
  simp only [BitVec.toNat_ofNat]
  omega

theorem fold_toNat_of_lt {page cy : Nat} (hp : page < 8) (hy : cy < 32) :
    (fold page cy).cpage.toNat = page ∧ (fold page cy).crow.toNat = cy := by
  simp only [fold, if_neg (Nat.not_le.mpr hy), BitVec.toNat_ofNat]
  omega

theorem fold_toNat_of_ge {page cy : Nat} (hp : page < 8) (hy : 32 ≤ cy) (hy' : cy < 64) :
    (fold page cy).cpage.toNat = page + 8 ∧ (fold page cy).crow.toNat = cy - 32 := by
  simp only [fold, if_pos hy, BitVec.toNat_ofNat]
  omega

theorem textFold_toNat_of_lt {cx cy : Nat} (hx : cx < 8) (hy : cy < 4) :
    (textFold cx cy).wideCx.toNat = cx ∧ (textFold cx cy).wideCy.toNat = cy := by
  simp only [textFold, if_neg (Nat.not_le.mpr hy), BitVec.toNat_ofNat]
  omega

theorem textFold_toNat_of_ge {cx cy : Nat} (hx : cx < 8) (hy : 4 ≤ cy) (hy' : cy < 8) :
    (textFold cx cy).wideCx.toNat = cx + 8 ∧ (textFold cx cy).wideCy.toNat = cy - 4 := by
  simp only [textFold, if_pos hy, BitVec.toNat_ofNat]
  omega

end Sys2Proof.Machine
end

