-- ==== Sys2Proof/Laws/State.lean ====
section
/-! SUPPORT. One lemma for each field of the state under each named update, true by rfl, so that no later proof unfolds a
record update; and the two reads, `pin` and `fbRead`, under the updates that leave them alone. -/

namespace Sys2Proof.Machine

/-! ### setStatus -/

@[simp] theorem setStatus_cfg (v : Status) (s : State) : (setStatus v s).cfg = s.cfg := rfl
@[simp] theorem setStatus_pins (v : Status) (s : State) : (setStatus v s).pins = s.pins := rfl
@[simp] theorem setStatus_status (v : Status) (s : State) : (setStatus v s).status = v := rfl
@[simp] theorem setStatus_gfxEn (v : Status) (s : State) : (setStatus v s).gfxEn = s.gfxEn := rfl
@[simp] theorem setStatus_imode (v : Status) (s : State) : (setStatus v s).imode = s.imode := rfl
@[simp] theorem setStatus_fb (v : Status) (s : State) : (setStatus v s).fb = s.fb := rfl
@[simp] theorem setStatus_trace (v : Status) (s : State) : (setStatus v s).trace = s.trace := rfl
@[simp] theorem setStatus_responses (v : Status) (s : State) : (setStatus v s).responses = s.responses := rfl
@[simp] theorem setStatus_commands (v : Status) (s : State) : (setStatus v s).commands = s.commands := rfl
@[simp] theorem pin_setStatus (v : Status) (s : State) (j : Fin 11) : pin (setStatus v s) j = pin s j := rfl
@[simp] theorem fbRead_setStatus (v : Status) (s : State) (j : EntryIndex) : fbRead (setStatus v s) j = fbRead s j := rfl

/-! ### setGfxEn -/

@[simp] theorem setGfxEn_cfg (v : Bool) (s : State) : (setGfxEn v s).cfg = s.cfg := rfl
@[simp] theorem setGfxEn_pins (v : Bool) (s : State) : (setGfxEn v s).pins = s.pins := rfl
@[simp] theorem setGfxEn_status (v : Bool) (s : State) : (setGfxEn v s).status = s.status := rfl
@[simp] theorem setGfxEn_gfxEn (v : Bool) (s : State) : (setGfxEn v s).gfxEn = v := rfl
@[simp] theorem setGfxEn_imode (v : Bool) (s : State) : (setGfxEn v s).imode = s.imode := rfl
@[simp] theorem setGfxEn_fb (v : Bool) (s : State) : (setGfxEn v s).fb = s.fb := rfl
@[simp] theorem setGfxEn_trace (v : Bool) (s : State) : (setGfxEn v s).trace = s.trace := rfl
@[simp] theorem setGfxEn_responses (v : Bool) (s : State) : (setGfxEn v s).responses = s.responses := rfl
@[simp] theorem setGfxEn_commands (v : Bool) (s : State) : (setGfxEn v s).commands = s.commands := rfl
@[simp] theorem pin_setGfxEn (v : Bool) (s : State) (j : Fin 11) : pin (setGfxEn v s) j = pin s j := rfl
@[simp] theorem fbRead_setGfxEn (v : Bool) (s : State) (j : EntryIndex) : fbRead (setGfxEn v s) j = fbRead s j := rfl

/-! ### setIMode -/

@[simp] theorem setIMode_cfg (v : IMode) (s : State) : (setIMode v s).cfg = s.cfg := rfl
@[simp] theorem setIMode_pins (v : IMode) (s : State) : (setIMode v s).pins = s.pins := rfl
@[simp] theorem setIMode_status (v : IMode) (s : State) : (setIMode v s).status = s.status := rfl
@[simp] theorem setIMode_gfxEn (v : IMode) (s : State) : (setIMode v s).gfxEn = s.gfxEn := rfl
@[simp] theorem setIMode_imode (v : IMode) (s : State) : (setIMode v s).imode = v := rfl
@[simp] theorem setIMode_fb (v : IMode) (s : State) : (setIMode v s).fb = s.fb := rfl
@[simp] theorem setIMode_trace (v : IMode) (s : State) : (setIMode v s).trace = s.trace := rfl
@[simp] theorem setIMode_responses (v : IMode) (s : State) : (setIMode v s).responses = s.responses := rfl
@[simp] theorem setIMode_commands (v : IMode) (s : State) : (setIMode v s).commands = s.commands := rfl
@[simp] theorem pin_setIMode (v : IMode) (s : State) (j : Fin 11) : pin (setIMode v s) j = pin s j := rfl
@[simp] theorem fbRead_setIMode (v : IMode) (s : State) (j : EntryIndex) : fbRead (setIMode v s) j = fbRead s j := rfl

/-! ### setPin -/

@[simp] theorem setPin_cfg (k : Fin 11) (id : Byte) (s : State) : (setPin k id s).cfg = s.cfg := rfl
@[simp] theorem setPin_pins (k : Fin 11) (id : Byte) (s : State) : (setPin k id s).pins = s.pins.set k.val id k.isLt := rfl
@[simp] theorem setPin_status (k : Fin 11) (id : Byte) (s : State) : (setPin k id s).status = s.status := rfl
@[simp] theorem setPin_gfxEn (k : Fin 11) (id : Byte) (s : State) : (setPin k id s).gfxEn = s.gfxEn := rfl
@[simp] theorem setPin_imode (k : Fin 11) (id : Byte) (s : State) : (setPin k id s).imode = s.imode := rfl
@[simp] theorem setPin_fb (k : Fin 11) (id : Byte) (s : State) : (setPin k id s).fb = s.fb := rfl
@[simp] theorem setPin_trace (k : Fin 11) (id : Byte) (s : State) : (setPin k id s).trace = s.trace := rfl
@[simp] theorem setPin_responses (k : Fin 11) (id : Byte) (s : State) : (setPin k id s).responses = s.responses := rfl
@[simp] theorem setPin_commands (k : Fin 11) (id : Byte) (s : State) : (setPin k id s).commands = s.commands := rfl
@[simp] theorem fbRead_setPin (k : Fin 11) (id : Byte) (s : State) (j : EntryIndex) : fbRead (setPin k id s) j = fbRead s j := rfl

/-! ### fbWrite -/

@[simp] theorem fbWrite_cfg (i : EntryIndex) (v : Page) (s : State) : (fbWrite i v s).cfg = s.cfg := rfl
@[simp] theorem fbWrite_pins (i : EntryIndex) (v : Page) (s : State) : (fbWrite i v s).pins = s.pins := rfl
@[simp] theorem fbWrite_status (i : EntryIndex) (v : Page) (s : State) : (fbWrite i v s).status = s.status := rfl
@[simp] theorem fbWrite_gfxEn (i : EntryIndex) (v : Page) (s : State) : (fbWrite i v s).gfxEn = s.gfxEn := rfl
@[simp] theorem fbWrite_imode (i : EntryIndex) (v : Page) (s : State) : (fbWrite i v s).imode = s.imode := rfl
@[simp] theorem fbWrite_fb (i : EntryIndex) (v : Page) (s : State) : (fbWrite i v s).fb = s.fb.set i.toNat v := rfl
@[simp] theorem fbWrite_trace (i : EntryIndex) (v : Page) (s : State) : (fbWrite i v s).trace = s.trace := rfl
@[simp] theorem fbWrite_responses (i : EntryIndex) (v : Page) (s : State) : (fbWrite i v s).responses = s.responses := rfl
@[simp] theorem fbWrite_commands (i : EntryIndex) (v : Page) (s : State) : (fbWrite i v s).commands = s.commands := rfl
@[simp] theorem pin_fbWrite (i : EntryIndex) (v : Page) (s : State) (j : Fin 11) : pin (fbWrite i v s) j = pin s j := rfl

/-! ### fbFill -/

@[simp] theorem fbFill_cfg (v : Page) (s : State) : (fbFill v s).cfg = s.cfg := rfl
@[simp] theorem fbFill_pins (v : Page) (s : State) : (fbFill v s).pins = s.pins := rfl
@[simp] theorem fbFill_status (v : Page) (s : State) : (fbFill v s).status = s.status := rfl
@[simp] theorem fbFill_gfxEn (v : Page) (s : State) : (fbFill v s).gfxEn = s.gfxEn := rfl
@[simp] theorem fbFill_imode (v : Page) (s : State) : (fbFill v s).imode = s.imode := rfl
@[simp] theorem fbFill_fb (v : Page) (s : State) : (fbFill v s).fb = Vector.replicate 512 v := rfl
@[simp] theorem fbFill_trace (v : Page) (s : State) : (fbFill v s).trace = s.trace := rfl
@[simp] theorem fbFill_responses (v : Page) (s : State) : (fbFill v s).responses = s.responses := rfl
@[simp] theorem fbFill_commands (v : Page) (s : State) : (fbFill v s).commands = s.commands := rfl
@[simp] theorem pin_fbFill (v : Page) (s : State) (j : Fin 11) : pin (fbFill v s) j = pin s j := rfl

/-! ### fbComplement -/

@[simp] theorem fbComplement_cfg (s : State) : (fbComplement s).cfg = s.cfg := rfl
@[simp] theorem fbComplement_pins (s : State) : (fbComplement s).pins = s.pins := rfl
@[simp] theorem fbComplement_status (s : State) : (fbComplement s).status = s.status := rfl
@[simp] theorem fbComplement_gfxEn (s : State) : (fbComplement s).gfxEn = s.gfxEn := rfl
@[simp] theorem fbComplement_imode (s : State) : (fbComplement s).imode = s.imode := rfl
@[simp] theorem fbComplement_fb (s : State) : (fbComplement s).fb = s.fb.map fun v => ~~~v := rfl
@[simp] theorem fbComplement_trace (s : State) : (fbComplement s).trace = s.trace := rfl
@[simp] theorem fbComplement_responses (s : State) : (fbComplement s).responses = s.responses := rfl
@[simp] theorem fbComplement_commands (s : State) : (fbComplement s).commands = s.commands := rfl
@[simp] theorem pin_fbComplement (s : State) (j : Fin 11) : pin (fbComplement s) j = pin s j := rfl

/-! ### emit -/

@[simp] theorem emit_cfg (es : List Event) (s : State) : (emit es s).cfg = s.cfg := rfl
@[simp] theorem emit_pins (es : List Event) (s : State) : (emit es s).pins = s.pins := rfl
@[simp] theorem emit_status (es : List Event) (s : State) : (emit es s).status = s.status := rfl
@[simp] theorem emit_gfxEn (es : List Event) (s : State) : (emit es s).gfxEn = s.gfxEn := rfl
@[simp] theorem emit_imode (es : List Event) (s : State) : (emit es s).imode = s.imode := rfl
@[simp] theorem emit_fb (es : List Event) (s : State) : (emit es s).fb = s.fb := rfl
@[simp] theorem emit_trace (es : List Event) (s : State) : (emit es s).trace = s.trace ++ es := rfl
@[simp] theorem emit_responses (es : List Event) (s : State) : (emit es s).responses = s.responses := rfl
@[simp] theorem emit_commands (es : List Event) (s : State) : (emit es s).commands = s.commands := rfl
@[simp] theorem pin_emit (es : List Event) (s : State) (j : Fin 11) : pin (emit es s) j = pin s j := rfl
@[simp] theorem fbRead_emit (es : List Event) (s : State) (j : EntryIndex) : fbRead (emit es s) j = fbRead s j := rfl

/-! ### respond -/

@[simp] theorem respond_cfg (r : ResponseWord) (s : State) : (respond r s).cfg = s.cfg := rfl
@[simp] theorem respond_pins (r : ResponseWord) (s : State) : (respond r s).pins = s.pins := rfl
@[simp] theorem respond_status (r : ResponseWord) (s : State) : (respond r s).status = s.status := rfl
@[simp] theorem respond_gfxEn (r : ResponseWord) (s : State) : (respond r s).gfxEn = s.gfxEn := rfl
@[simp] theorem respond_imode (r : ResponseWord) (s : State) : (respond r s).imode = s.imode := rfl
@[simp] theorem respond_fb (r : ResponseWord) (s : State) : (respond r s).fb = s.fb := rfl
@[simp] theorem respond_trace (r : ResponseWord) (s : State) : (respond r s).trace = s.trace := rfl
@[simp] theorem respond_responses (r : ResponseWord) (s : State) : (respond r s).responses = s.responses ++ [r] := rfl
@[simp] theorem respond_commands (r : ResponseWord) (s : State) : (respond r s).commands = s.commands := rfl
@[simp] theorem pin_respond (r : ResponseWord) (s : State) (j : Fin 11) : pin (respond r s) j = pin s j := rfl
@[simp] theorem fbRead_respond (r : ResponseWord) (s : State) (j : EntryIndex) : fbRead (respond r s) j = fbRead s j := rfl

/-! ### sendByte -/

@[simp] theorem sendByte_cfg (b : BusByte) (s : State) : (sendByte b s).cfg = s.cfg := rfl
@[simp] theorem sendByte_pins (b : BusByte) (s : State) : (sendByte b s).pins = s.pins := rfl
@[simp] theorem sendByte_status (b : BusByte) (s : State) : (sendByte b s).status = s.status := rfl
@[simp] theorem sendByte_gfxEn (b : BusByte) (s : State) : (sendByte b s).gfxEn = s.gfxEn := rfl
@[simp] theorem sendByte_imode (b : BusByte) (s : State) : (sendByte b s).imode = s.imode := rfl
@[simp] theorem sendByte_fb (b : BusByte) (s : State) : (sendByte b s).fb = s.fb := rfl
@[simp] theorem sendByte_trace (b : BusByte) (s : State) : (sendByte b s).trace = s.trace ++ busEvents s b := rfl
@[simp] theorem sendByte_responses (b : BusByte) (s : State) : (sendByte b s).responses = s.responses := rfl
@[simp] theorem sendByte_commands (b : BusByte) (s : State) : (sendByte b s).commands = s.commands := rfl
@[simp] theorem pin_sendByte (b : BusByte) (s : State) (j : Fin 11) : pin (sendByte b s) j = pin s j := rfl
@[simp] theorem fbRead_sendByte (b : BusByte) (s : State) (j : EntryIndex) : fbRead (sendByte b s) j = fbRead s j := rfl

/-! ### sendBytes -/

@[simp] theorem sendBytes_cfg (bs : List BusByte) (s : State) : (sendBytes bs s).cfg = s.cfg := rfl
@[simp] theorem sendBytes_pins (bs : List BusByte) (s : State) : (sendBytes bs s).pins = s.pins := rfl
@[simp] theorem sendBytes_status (bs : List BusByte) (s : State) : (sendBytes bs s).status = s.status := rfl
@[simp] theorem sendBytes_gfxEn (bs : List BusByte) (s : State) : (sendBytes bs s).gfxEn = s.gfxEn := rfl
@[simp] theorem sendBytes_imode (bs : List BusByte) (s : State) : (sendBytes bs s).imode = s.imode := rfl
@[simp] theorem sendBytes_fb (bs : List BusByte) (s : State) : (sendBytes bs s).fb = s.fb := rfl
@[simp] theorem sendBytes_trace (bs : List BusByte) (s : State) : (sendBytes bs s).trace = s.trace ++ bs.flatMap (busEvents s) := rfl
@[simp] theorem sendBytes_responses (bs : List BusByte) (s : State) : (sendBytes bs s).responses = s.responses := rfl
@[simp] theorem sendBytes_commands (bs : List BusByte) (s : State) : (sendBytes bs s).commands = s.commands := rfl
@[simp] theorem pin_sendBytes (bs : List BusByte) (s : State) (j : Fin 11) : pin (sendBytes bs s) j = pin s j := rfl
@[simp] theorem fbRead_sendBytes (bs : List BusByte) (s : State) (j : EntryIndex) : fbRead (sendBytes bs s) j = fbRead s j := rfl

/-! ### selectInstructionMode -/

@[simp] theorem selectInstructionMode_cfg (e : Bool) (s : State) : (selectInstructionMode e s).cfg = s.cfg := rfl
@[simp] theorem selectInstructionMode_pins (e : Bool) (s : State) : (selectInstructionMode e s).pins = s.pins := rfl
@[simp] theorem selectInstructionMode_status (e : Bool) (s : State) : (selectInstructionMode e s).status = s.status := rfl
@[simp] theorem selectInstructionMode_gfxEn (e : Bool) (s : State) : (selectInstructionMode e s).gfxEn = s.gfxEn := rfl
@[simp] theorem selectInstructionMode_imode (e : Bool) (s : State) : (selectInstructionMode e s).imode = if e then .extended else .basic := rfl
@[simp] theorem selectInstructionMode_fb (e : Bool) (s : State) : (selectInstructionMode e s).fb = s.fb := rfl
@[simp] theorem selectInstructionMode_trace (e : Bool) (s : State) : (selectInstructionMode e s).trace = s.trace ++ busEvents s (modeSelect s.cfg s.gfxEn e) := rfl
@[simp] theorem selectInstructionMode_responses (e : Bool) (s : State) : (selectInstructionMode e s).responses = s.responses := rfl
@[simp] theorem selectInstructionMode_commands (e : Bool) (s : State) : (selectInstructionMode e s).commands = s.commands := rfl
@[simp] theorem pin_selectInstructionMode (e : Bool) (s : State) (j : Fin 11) : pin (selectInstructionMode e s) j = pin s j := rfl
@[simp] theorem fbRead_selectInstructionMode (e : Bool) (s : State) (j : EntryIndex) : fbRead (selectInstructionMode e s) j = fbRead s j := rfl

/-! ### present -/

@[simp] theorem present_cfg (ws : List CommandWord) (s : State) : (present ws s).cfg = s.cfg := rfl
@[simp] theorem present_pins (ws : List CommandWord) (s : State) : (present ws s).pins = s.pins := rfl
@[simp] theorem present_status (ws : List CommandWord) (s : State) : (present ws s).status = s.status := rfl
@[simp] theorem present_gfxEn (ws : List CommandWord) (s : State) : (present ws s).gfxEn = s.gfxEn := rfl
@[simp] theorem present_imode (ws : List CommandWord) (s : State) : (present ws s).imode = s.imode := rfl
@[simp] theorem present_fb (ws : List CommandWord) (s : State) : (present ws s).fb = s.fb := rfl
@[simp] theorem present_trace (ws : List CommandWord) (s : State) : (present ws s).trace = s.trace := rfl
@[simp] theorem present_responses (ws : List CommandWord) (s : State) : (present ws s).responses = s.responses := rfl
@[simp] theorem present_commands (ws : List CommandWord) (s : State) : (present ws s).commands = s.commands ++ ws := rfl
@[simp] theorem pin_present (ws : List CommandWord) (s : State) (j : Fin 11) : pin (present ws s) j = pin s j := rfl
@[simp] theorem fbRead_present (ws : List CommandWord) (s : State) (j : EntryIndex) : fbRead (present ws s) j = fbRead s j := rfl

/-! ### placeCommand -/

@[simp] theorem placeCommand_cfg (w : CommandWord) (s : State) : (placeCommand w s).cfg = s.cfg := rfl
@[simp] theorem placeCommand_pins (w : CommandWord) (s : State) : (placeCommand w s).pins = s.pins := rfl
@[simp] theorem placeCommand_status (w : CommandWord) (s : State) : (placeCommand w s).status = s.status := rfl
@[simp] theorem placeCommand_gfxEn (w : CommandWord) (s : State) : (placeCommand w s).gfxEn = s.gfxEn := rfl
@[simp] theorem placeCommand_imode (w : CommandWord) (s : State) : (placeCommand w s).imode = s.imode := rfl
@[simp] theorem placeCommand_fb (w : CommandWord) (s : State) : (placeCommand w s).fb = s.fb := rfl
@[simp] theorem placeCommand_trace (w : CommandWord) (s : State) : (placeCommand w s).trace = s.trace := rfl
@[simp] theorem placeCommand_responses (w : CommandWord) (s : State) : (placeCommand w s).responses = s.responses := rfl
@[simp] theorem placeCommand_commands (w : CommandWord) (s : State) : (placeCommand w s).commands = w :: s.commands := rfl
@[simp] theorem pin_placeCommand (w : CommandWord) (s : State) (j : Fin 11) : pin (placeCommand w s) j = pin s j := rfl
@[simp] theorem fbRead_placeCommand (w : CommandWord) (s : State) (j : EntryIndex) : fbRead (placeCommand w s) j = fbRead s j := rfl

end Sys2Proof.Machine
end

