-- ==== Sys2Proof/Laws/Ops.lean ====
section
/-! SUPPORT. What each shared operation can do, said once: reads after writes, the framebuffer as data, the gate, a
failure, and the bytes on the bus. -/

namespace Sys2Proof.Machine

/-! ### Pins and framebuffer -/

theorem pin_setPin (k j : Fin 11) (id : Byte) (s : State) :
    pin (setPin k id s) j = if j = k then id else pin s j := by
  simp only [pin, setPin_pins, Fin.getElem_fin, Vector.getElem_set, Fin.ext_iff, eq_comm]

theorem fbRead_fbWrite (i j : EntryIndex) (v : Page) (s : State) :
    fbRead (fbWrite i v s) j = if j = i then v else fbRead s j := by
  simp only [fbRead, fbWrite_fb, Vector.getElem_set, BitVec.toNat_eq, eq_comm]

@[simp] theorem fbRead_fbFill (v : Page) (s : State) (j : EntryIndex) : fbRead (fbFill v s) j = v := by
  simp [fbRead]

@[simp] theorem fbRead_fbComplement (s : State) (j : EntryIndex) :
    fbRead (fbComplement s) j = ~~~(fbRead s j) := by
  simp [fbRead]

/-- Two framebuffers that read alike at every index are the same data. -/
theorem fb_ext {s t : State} (h : ∀ i, fbRead s i = fbRead t i) : s.fb = t.fb := by
  ext1 i hi
  simpa [fbRead, Nat.mod_eq_of_lt hi] using h (BitVec.ofNat 9 i)

/-- Every state's memory is in the canonical form, so every memory operation keeps it, and the reset state's has it. -/
theorem fbCells_wf (s : State) : Memory.wf (fbCells s) = true := by
  simp [Memory.wf, fbCells, List.map_fst_zip]

/-- Equal cells are equal memories. -/
theorem fbCells_inj {s t : State} (h : fbCells s = fbCells t) : s.fb = t.fb := by
  have h2 : (fbCells s).map Prod.snd = (fbCells t).map Prod.snd := by rw [h]
  exact Vector.toList_inj.mp (by simpa [fbCells, List.map_snd_zip] using h2)

theorem requiredPinsValid_iff (s : State) :
    requiredPinsValid s = true ↔ ∀ k : Fin 10, pinValid (pin s (requiredSlot k)) = true := by
  simp [requiredPinsValid]

/-! ### Outcomes -/

theorem requireInitialized_of_initialized {s : State} {body : Result} (h : s.status = .initialized) :
    requireInitialized s body = body := if_pos h

theorem requireInitialized_of_ne {s : State} {body : Result} (h : s.status ≠ .initialized) :
    requireInitialized s body = raiseFail .notInitialized s := if_neg h

/-- What the gate can answer: the failure NotInitialized, or what stands behind it. -/
theorem requireInitialized_eq_next {s t : State} {body : Result} (h : requireInitialized s body = .next t) :
    (s.status ≠ .initialized ∧ t = respond (failWord .notInitialized) s) ∨
      (s.status = .initialized ∧ body = .next t) := by
  by_cases hs : s.status = .initialized
  · exact .inr ⟨hs, by rwa [requireInitialized_of_initialized hs] at h⟩
  · rw [requireInitialized_of_ne hs] at h
    exact .inl ⟨hs, by cases h; rfl⟩

@[simp] theorem translated_none {α : Type} (s : State) (body : α → Result) :
    translated none s body = raiseFail .outOfRange s := rfl

@[simp] theorem translated_some {α : Type} (x : α) (s : State) (body : α → Result) :
    translated (some x) s body = body x := rfl

/-- What a translation's result leads to: the failure OutOfRange, or the body on the translated place. -/
theorem translated_eq_next {α : Type} {p : Option α} {s t : State} {body : α → Result}
    (h : translated p s body = .next t) :
    (p = none ∧ t = respond (failWord .outOfRange) s) ∨ ∃ x, p = some x ∧ body x = .next t := by
  cases p with
  | none => exact .inl ⟨rfl, by cases h; rfl⟩
  | some x => exact .inr ⟨x, rfl, h⟩

/-! ### Bus bytes -/

/-- The events of a bus byte depend on the pins and the parameters alone. -/
theorem busEvents_congr {s t : State} (hp : t.pins = s.pins) (hc : t.cfg = s.cfg) : busEvents t = busEvents s := by
  funext b
  simp [busEvents, pin, hp, hc]

@[simp] theorem busEvents_emit (es : List Event) (s : State) : busEvents (emit es s) = busEvents s :=
  busEvents_congr rfl rfl

@[simp] theorem busEvents_sendByte (b : BusByte) (s : State) : busEvents (sendByte b s) = busEvents s :=
  busEvents_congr rfl rfl

@[simp] theorem busEvents_sendBytes (bs : List BusByte) (s : State) : busEvents (sendBytes bs s) = busEvents s :=
  busEvents_congr rfl rfl

@[simp] theorem busEvents_selectInstructionMode (e : Bool) (s : State) :
    busEvents (selectInstructionMode e s) = busEvents s :=
  busEvents_congr rfl rfl

@[simp] theorem busEvents_respond (r : ResponseWord) (s : State) : busEvents (respond r s) = busEvents s :=
  busEvents_congr rfl rfl

theorem sendBytes_nil (s : State) : sendBytes [] s = s := by
  simp [sendBytes, emit]

/-- Sending a bus-byte trace is sending its bytes one after another. -/
theorem sendBytes_cons (b : BusByte) (bs : List BusByte) (s : State) :
    sendBytes (b :: bs) s = sendBytes bs (sendByte b s) := by
  simp [sendBytes, sendByte, emit, busEvents_congr (s := s)]

theorem sendBytes_append (as bs : List BusByte) (s : State) :
    sendBytes (as ++ bs) s = sendBytes bs (sendBytes as s) := by
  induction as generalizing s with
  | nil => rw [List.nil_append, sendBytes_nil]
  | cons a as ih => rw [List.cons_append, sendBytes_cons, ih, sendBytes_cons]

end Sys2Proof.Machine
end

