-- ==== Sys2Proof/Laws/Exec.lean ====
section
/-! SUPPORT. What `exec` can do, said once for all commands: it fails and adds one response, or it succeeds, and then how
each part of the state stands to what it was. -/

namespace Sys2Proof.Machine

/-- What a command that succeeds leaves, before its response: `u` against the state `s` it started from. The pins and the
status change together, by a SETPIN or by a BEGIN, or not at all. -/
structure Done (s u : State) : Prop where
  cfg : u.cfg = s.cfg
  commands : u.commands = s.commands
  responses : u.responses = s.responses
  trace : ∃ es, u.trace = s.trace ++ es
  control : (u.pins = s.pins ∧ u.status = s.status) ∨
    (∃ k id, u = setIMode .unknown (setStatus .uninitialized (setPin k id s))) ∨
    (requiredPinsValid s = true ∧ u = setStatus .initialized (emit (beginEvents s) s))

/-- The two ways a command ends: a failure of some cause, or success with some value. -/
def Ends (s t : State) : Prop :=
  (∃ c, t = respond (failWord c) s) ∨ ∃ v u, t = respond (okWord v) u ∧ Done s u

theorem Ends.failed (c : Cause) (s : State) : Ends s (respond (failWord c) s) := .inl ⟨c, rfl⟩

theorem Ends.done {s u : State} (v : Page) (h : Done s u) : Ends s (respond (okWord v) u) := .inr ⟨v, u, rfl, h⟩

/-- A gated command ends if what stands behind the gate does. -/
theorem Ends.gated {s t : State} {body : Result} (h : requireInitialized s body = .next t)
    (hb : body = .next t → Ends s t) : Ends s t := by
  rcases requireInitialized_eq_next h with ⟨-, rfl⟩ | ⟨-, h⟩
  · exact .failed _ _
  · exact hb h

/-- A translated command ends if its body does on every place. -/
theorem Ends.translated {α : Type} {p : Option α} {s t : State} {body : α → Result}
    (h : translated p s body = .next t) (hb : ∀ x, body x = .next t → Ends s t) : Ends s t := by
  rcases translated_eq_next h with ⟨-, rfl⟩ | ⟨x, -, h⟩
  · exact .failed _ _
  · exact hb x h

theorem Done.same {s u : State} (hc : u.cfg = s.cfg) (hm : u.commands = s.commands) (hr : u.responses = s.responses)
    (ht : u.trace = s.trace) (hp : u.pins = s.pins) (hs : u.status = s.status) : Done s u :=
  ⟨hc, hm, hr, ⟨[], by simp [ht]⟩, .inl ⟨hp, hs⟩⟩

theorem Done.sent {s u : State} (es : List Event) (hc : u.cfg = s.cfg) (hm : u.commands = s.commands)
    (hr : u.responses = s.responses) (ht : u.trace = s.trace ++ es) (hp : u.pins = s.pins)
    (hs : u.status = s.status) : Done s u :=
  ⟨hc, hm, hr, ⟨es, ht⟩, .inl ⟨hp, hs⟩⟩

theorem ends_of_respondOk {s t u : State} {v : Page} (h : respondOk v u = .next t) (hd : Done s u) : Ends s t := by
  cases h
  exact .done v hd

theorem ends_of_paintPage {page cy : Byte} {s t : State} (h : paintPage page cy s = .next t) : Ends s t :=
  .translated h fun _ h => ends_of_respondOk h (.sent _ rfl rfl rfl (List.append_assoc ..) rfl rfl)

/-- Everything a command can do. -/
theorem exec_ends {i : Instr} {s t : State} (h : exec i s = .next t) : Ends s t := by
  cases i with
  | setpin slot id =>
    simp only [exec, execSetpin] at h
    split at h
    · exact ends_of_respondOk h ⟨rfl, rfl, rfl, ⟨[], by simp⟩, .inr (.inl ⟨_, _, rfl⟩)⟩
    · cases h; exact .failed _ _
  | begin =>
    simp only [exec, execBegin] at h
    split at h
    · next hv => exact ends_of_respondOk h ⟨rfl, rfl, rfl, ⟨_, rfl⟩, .inr (.inr ⟨hv, rfl⟩)⟩
    · cases h; exact .failed _ _
  | gfxen on => exact .gated h fun h => ends_of_respondOk h (.same rfl rfl rfl rfl rfl rfl)
  | getst => exact ends_of_respondOk h (.same rfl rfl rfl rfl rfl rfl)
  | setpx cx cy lit =>
    refine .gated h fun h => .translated h fun x h => ?_
    split at h <;> exact ends_of_respondOk h (.same rfl rfl rfl rfl rfl rfl)
  | getpx cx cy =>
    exact .gated h fun h => .translated h fun x h => ends_of_respondOk h (.same rfl rfl rfl rfl rfl rfl)
  | tglpx cx cy =>
    exact .gated h fun h => .translated h fun x h => ends_of_respondOk h (.same rfl rfl rfl rfl rfl rfl)
  | setpg page cy value =>
    exact .gated h fun h => .translated h fun x h => ends_of_respondOk h (.same rfl rfl rfl rfl rfl rfl)
  | getpg page cy =>
    exact .gated h fun h => .translated h fun x h => ends_of_respondOk h (.same rfl rfl rfl rfl rfl rfl)
  | tglpg page cy xorMask =>
    exact .gated h fun h => .translated h fun x h => ends_of_respondOk h (.same rfl rfl rfl rfl rfl rfl)
  | setall lit => exact .gated h fun h => ends_of_respondOk h (.same rfl rfl rfl rfl rfl rfl)
  | tglall => exact .gated h fun h => ends_of_respondOk h (.same rfl rfl rfl rfl rfl rfl)
  | pntpg page cy => exact .gated h ends_of_paintPage
  | pntall =>
    exact .gated h fun h => ends_of_respondOk h (.sent _ rfl rfl rfl (List.append_assoc ..) rfl rfl)
  | pntpx cx cy => exact .gated h ends_of_paintPage
  | settc cx cy =>
    exact .gated h fun h => .translated h fun x h =>
      ends_of_respondOk h (.sent _ rfl rfl rfl (List.append_assoc ..) rfl rfl)
  | setwtc cx cy =>
    exact .gated h fun h => .translated h fun x h =>
      ends_of_respondOk h (.sent _ rfl rfl rfl (List.append_assoc ..) rfl rfl)
  | prtc c => exact .gated h fun h => ends_of_respondOk h (.sent _ rfl rfl rfl rfl rfl rfl)
  | prtw w => exact .gated h fun h => ends_of_respondOk h (.sent _ rfl rfl rfl rfl rfl rfl)
  | fillc c =>
    exact .gated h fun h => ends_of_respondOk h (.sent _ rfl rfl rfl (List.append_assoc ..) rfl rfl)
  | fillw w =>
    exact .gated h fun h => ends_of_respondOk h (.sent _ rfl rfl rfl (List.append_assoc ..) rfl rfl)

/-- No command faults and none is refused: the failure of a command is a next state (60_exceptions R250). -/
theorem exec_next (i : Instr) (s : State) : ∃ t, exec i s = .next t := by
  have gate : ∀ body : Result, (∃ t, body = .next t) → ∃ t, requireInitialized s body = .next t := by
    intro body h
    unfold requireInitialized
    split
    · exact h
    · exact ⟨_, rfl⟩
  have trans : ∀ (α : Type) (p : Option α) (body : α → Result), (∀ x, ∃ t, body x = .next t) →
      ∃ t, translated p s body = .next t := by
    intro α p body h
    cases p with
    | none => exact ⟨_, rfl⟩
    | some x => exact h x
  cases i with
  | setpin slot id => simp only [exec, execSetpin]; split <;> exact ⟨_, rfl⟩
  | begin => simp only [exec, execBegin]; split <;> exact ⟨_, rfl⟩
  | gfxen on => exact gate _ ⟨_, rfl⟩
  | getst => exact ⟨_, rfl⟩
  | setpx cx cy lit => exact gate _ (trans _ _ _ fun x => by split <;> exact ⟨_, rfl⟩)
  | getpx cx cy => exact gate _ (trans _ _ _ fun x => ⟨_, rfl⟩)
  | tglpx cx cy => exact gate _ (trans _ _ _ fun x => ⟨_, rfl⟩)
  | setpg page cy value => exact gate _ (trans _ _ _ fun x => ⟨_, rfl⟩)
  | getpg page cy => exact gate _ (trans _ _ _ fun x => ⟨_, rfl⟩)
  | tglpg page cy xorMask => exact gate _ (trans _ _ _ fun x => ⟨_, rfl⟩)
  | setall lit => exact gate _ ⟨_, rfl⟩
  | tglall => exact gate _ ⟨_, rfl⟩
  | pntpg page cy => exact gate _ (trans _ _ _ fun x => ⟨_, rfl⟩)
  | pntall => exact gate _ ⟨_, rfl⟩
  | pntpx cx cy => exact gate _ (trans _ _ _ fun x => ⟨_, rfl⟩)
  | settc cx cy => exact gate _ (trans _ _ _ fun x => ⟨_, rfl⟩)
  | setwtc cx cy => exact gate _ (trans _ _ _ fun x => ⟨_, rfl⟩)
  | prtc c => exact gate _ ⟨_, rfl⟩
  | prtw w => exact gate _ ⟨_, rfl⟩
  | fillc c => exact gate _ ⟨_, rfl⟩
  | fillw w => exact gate _ ⟨_, rfl⟩

end Sys2Proof.Machine
end

