-- ==== Sys2Proof/Laws/Flags.lean ====
section
/-! SUPPORT. The fields of a response word (30_encoding R82), of success and of each failure. -/

namespace Sys2Proof.Machine

/-- Bit by bit, a response word is its three fields. -/
theorem getLsbD_responseWord (f : BitVec 1) (c : BitVec 3) (v : Page) (i : Nat) :
    (responseWord f c v).getLsbD i =
      if i < 16 then v.getLsbD i else if i < 19 then c.getLsbD (i - 16) else f.getLsbD (i - 19) := by
  change BitVec.getLsbD (w := 1 + 3 + 16) (f ++ c ++ v) i = _
  simp only [BitVec.getLsbD_append]
  by_cases h16 : i < 16
  · simp [h16]
  by_cases h19 : i < 19
  · simp [h16, h19, show i - 16 < 3 by omega]
  · simp [h16, h19, show ¬ i - 16 < 3 by omega, show i - 16 - 3 = i - 19 by omega]

@[simp] theorem fieldFAIL_okWord (v : Page) : fieldFAIL (okWord v) = false := by
  rw [fieldFAIL, okWord, getLsbD_responseWord]
  rfl

@[simp] theorem fieldCAUSE_okWord (v : Page) : fieldCAUSE (okWord v) = 0#3 := by
  apply BitVec.eq_of_getLsbD_eq
  intro i hi
  simp [fieldCAUSE, okWord, getLsbD_responseWord]

@[simp] theorem fieldVALUE_okWord (v : Page) : fieldVALUE (okWord v) = v := by
  apply BitVec.eq_of_getLsbD_eq
  intro i hi
  simp [fieldVALUE, okWord, getLsbD_responseWord, hi]

@[simp] theorem fieldFAIL_failWord (c : Cause) : fieldFAIL (failWord c) = true := by cases c <;> decide

@[simp] theorem fieldCAUSE_failWord (c : Cause) : fieldCAUSE (failWord c) = c.code := by cases c <;> decide

@[simp] theorem fieldVALUE_failWord (c : Cause) : fieldVALUE (failWord c) = 0#16 := by cases c <;> decide

/-- The response of success is the value, widened (30_encoding R82). -/
theorem okWord_eq (v : Page) : okWord v = BitVec.ofNat 20 v.toNat := by
  apply BitVec.eq_of_getLsbD_eq
  intro i hi
  rw [okWord, getLsbD_responseWord, BitVec.getLsbD_ofNat, ← BitVec.getLsbD]
  by_cases h : i < 16
  · simp [h, hi]
  · rw [BitVec.getLsbD_of_ge v i (by omega)]
    simp [h]

end Sys2Proof.Machine
end

