-- ==== Sys2Proof/Laws/PerInstr.lean ====
section
/-! SUPPORT. Per-instruction families: one lemma for each constructor of `Instr`. `SpellsRow`: the word of a command
spells the command's row of the opcode map, `(W AND mask) = match` (30_encoding R83). -/

namespace Sys2Proof.Laws.SpellsRow

/-- Some row of the opcode map has the command's mnemonic, and the command's word matches it. -/
def Statement (i : Instr) : Prop :=
  ∃ r ∈ opcodeTable, r.mnemonic = i.mnemonic ∧ encode i &&& r.mask = r.matchBits

/-- A flag operand leaves V[15:1] zero. -/
theorem flagField_and (f : Bool) : flagField f &&& 0xFFFE#16 = 0#16 := by cases f <;> decide

/-- An 8-bit code leaves V[15:8] zero. -/
theorem code_and (c : Byte) : c.setWidth 16 &&& 0xFF00#16 = 0#16 := by
  apply BitVec.eq_of_getLsbD_eq
  intro i hi
  simp only [BitVec.getLsbD_and, BitVec.getLsbD_setWidth, BitVec.getLsbD_zero]
  by_cases h : i < 8
  · have : (0xFF00#16).getLsbD i = false := by interval_cases i <;> rfl
    rw [this, Bool.and_false]
  · rw [BitVec.getLsbD_of_ge c i (by omega)]; simp

/-- A word whose fields, under a row's mask, give the row's opcode and zeros matches the row. -/
theorem of_row (r : OpcodeRow) {i : Instr} {op a b ma mb : Byte} {v mv : Page} (hr : r ∈ opcodeTable)
    (hm : r.mnemonic = i.mnemonic) (he : encode i = packWord op a b v) (hmask : r.mask = packWord 0xFF ma mb mv)
    (hmatch : r.matchBits = packWord op 0 0 0) (ho : op &&& 0xFF = op) (ha : a &&& ma = 0) (hb : b &&& mb = 0)
    (hv : v &&& mv = 0) : Statement i :=
  ⟨r, hr, hm, by rw [he, hmask, packWord_and, hmatch, ho, ha, hb, hv]⟩

theorem setpin (slot id : Byte) : Statement (.setpin slot id) :=
  of_row ⟨.SETPIN, 0x01, 0x0100000000, 0xFF0000FFFF⟩ (by decide) rfl rfl
    (show _ = packWord 0xFF 0x00 0x00 0xFFFF by decide) (by decide) (by decide) BitVec.and_zero BitVec.and_zero rfl

theorem begin : Statement .begin :=
  of_row ⟨.BEGIN, 0x02, 0x0200000000, 0xFFFFFFFFFF⟩ (by decide) rfl rfl
    (show _ = packWord 0xFF 0xFF 0xFF 0xFFFF by decide) (by decide) (by decide) rfl rfl rfl

theorem gfxen (on : Bool) : Statement (.gfxen on) :=
  of_row ⟨.GFXEN, 0x03, 0x0300000000, 0xFFFFFFFFFE⟩ (by decide) rfl rfl
    (show _ = packWord 0xFF 0xFF 0xFF 0xFFFE by decide) (by decide) (by decide) rfl rfl (flagField_and _)

theorem getst : Statement .getst :=
  of_row ⟨.GETST, 0x04, 0x0400000000, 0xFFFFFFFFFF⟩ (by decide) rfl rfl
    (show _ = packWord 0xFF 0xFF 0xFF 0xFFFF by decide) (by decide) (by decide) rfl rfl rfl

theorem setpx (cx cy : Byte) (lit : Bool) : Statement (.setpx cx cy lit) :=
  of_row ⟨.SETPX, 0x10, 0x1000000000, 0xFF0000FFFE⟩ (by decide) rfl rfl
    (show _ = packWord 0xFF 0x00 0x00 0xFFFE by decide) (by decide) (by decide) BitVec.and_zero BitVec.and_zero (flagField_and _)

theorem getpx (cx cy : Byte) : Statement (.getpx cx cy) :=
  of_row ⟨.GETPX, 0x11, 0x1100000000, 0xFF0000FFFF⟩ (by decide) rfl rfl
    (show _ = packWord 0xFF 0x00 0x00 0xFFFF by decide) (by decide) (by decide) BitVec.and_zero BitVec.and_zero rfl

theorem tglpx (cx cy : Byte) : Statement (.tglpx cx cy) :=
  of_row ⟨.TGLPX, 0x12, 0x1200000000, 0xFF0000FFFF⟩ (by decide) rfl rfl
    (show _ = packWord 0xFF 0x00 0x00 0xFFFF by decide) (by decide) (by decide) BitVec.and_zero BitVec.and_zero rfl

theorem setpg (page cy : Byte) (value : Page) : Statement (.setpg page cy value) :=
  of_row ⟨.SETPG, 0x13, 0x1300000000, 0xFF00000000⟩ (by decide) rfl rfl
    (show _ = packWord 0xFF 0x00 0x00 0x0000 by decide) (by decide) (by decide) BitVec.and_zero BitVec.and_zero BitVec.and_zero

theorem getpg (page cy : Byte) : Statement (.getpg page cy) :=
  of_row ⟨.GETPG, 0x14, 0x1400000000, 0xFF0000FFFF⟩ (by decide) rfl rfl
    (show _ = packWord 0xFF 0x00 0x00 0xFFFF by decide) (by decide) (by decide) BitVec.and_zero BitVec.and_zero rfl

theorem tglpg (page cy : Byte) (xorMask : Page) : Statement (.tglpg page cy xorMask) :=
  of_row ⟨.TGLPG, 0x15, 0x1500000000, 0xFF00000000⟩ (by decide) rfl rfl
    (show _ = packWord 0xFF 0x00 0x00 0x0000 by decide) (by decide) (by decide) BitVec.and_zero BitVec.and_zero BitVec.and_zero

theorem setall (lit : Bool) : Statement (.setall lit) :=
  of_row ⟨.SETALL, 0x16, 0x1600000000, 0xFFFFFFFFFE⟩ (by decide) rfl rfl
    (show _ = packWord 0xFF 0xFF 0xFF 0xFFFE by decide) (by decide) (by decide) rfl rfl (flagField_and _)

theorem tglall : Statement .tglall :=
  of_row ⟨.TGLALL, 0x17, 0x1700000000, 0xFFFFFFFFFF⟩ (by decide) rfl rfl
    (show _ = packWord 0xFF 0xFF 0xFF 0xFFFF by decide) (by decide) (by decide) rfl rfl rfl

theorem pntpg (page cy : Byte) : Statement (.pntpg page cy) :=
  of_row ⟨.PNTPG, 0x20, 0x2000000000, 0xFF0000FFFF⟩ (by decide) rfl rfl
    (show _ = packWord 0xFF 0x00 0x00 0xFFFF by decide) (by decide) (by decide) BitVec.and_zero BitVec.and_zero rfl

theorem pntall : Statement .pntall :=
  of_row ⟨.PNTALL, 0x21, 0x2100000000, 0xFFFFFFFFFF⟩ (by decide) rfl rfl
    (show _ = packWord 0xFF 0xFF 0xFF 0xFFFF by decide) (by decide) (by decide) rfl rfl rfl

theorem pntpx (cx cy : Byte) : Statement (.pntpx cx cy) :=
  of_row ⟨.PNTPX, 0x22, 0x2200000000, 0xFF0000FFFF⟩ (by decide) rfl rfl
    (show _ = packWord 0xFF 0x00 0x00 0xFFFF by decide) (by decide) (by decide) BitVec.and_zero BitVec.and_zero rfl

theorem settc (cx cy : Byte) : Statement (.settc cx cy) :=
  of_row ⟨.SETTC, 0x40, 0x4000000000, 0xFF0000FFFF⟩ (by decide) rfl rfl
    (show _ = packWord 0xFF 0x00 0x00 0xFFFF by decide) (by decide) (by decide) BitVec.and_zero BitVec.and_zero rfl

theorem setwtc (cx cy : Byte) : Statement (.setwtc cx cy) :=
  of_row ⟨.SETWTC, 0x41, 0x4100000000, 0xFF0000FFFF⟩ (by decide) rfl rfl
    (show _ = packWord 0xFF 0x00 0x00 0xFFFF by decide) (by decide) (by decide) BitVec.and_zero BitVec.and_zero rfl

theorem prtc (c : Byte) : Statement (.prtc c) :=
  of_row ⟨.PRTC, 0x42, 0x4200000000, 0xFFFFFFFF00⟩ (by decide) rfl rfl
    (show _ = packWord 0xFF 0xFF 0xFF 0xFF00 by decide) (by decide) (by decide) rfl rfl (code_and _)

theorem prtw (w : Page) : Statement (.prtw w) :=
  of_row ⟨.PRTW, 0x43, 0x4300000000, 0xFFFFFF0000⟩ (by decide) rfl rfl
    (show _ = packWord 0xFF 0xFF 0xFF 0x0000 by decide) (by decide) (by decide) rfl rfl BitVec.and_zero

theorem fillc (c : Byte) : Statement (.fillc c) :=
  of_row ⟨.FILLC, 0x44, 0x4400000000, 0xFFFFFFFF00⟩ (by decide) rfl rfl
    (show _ = packWord 0xFF 0xFF 0xFF 0xFF00 by decide) (by decide) (by decide) rfl rfl (code_and _)

theorem fillw (w : Page) : Statement (.fillw w) :=
  of_row ⟨.FILLW, 0x45, 0x4500000000, 0xFFFFFF0000⟩ (by decide) rfl rfl
    (show _ = packWord 0xFF 0xFF 0xFF 0x0000 by decide) (by decide) (by decide) rfl rfl BitVec.and_zero

end Sys2Proof.Laws.SpellsRow
end

