-- ==== Sys2Proof/Laws/Pseudo.lean ====
section
/-! SUPPORT. What the unlengthed string pseudo-instructions expand to (30_encoding R90). -/

namespace Sys2Proof.Machine

/-- A list is cut at the first element that a test stops at. -/
theorem takeWhile_ne_append {α : Type} [DecidableEq α] {z : α} {xs : List α} (h : z ∉ xs) (rest : List α) :
    (xs ++ z :: rest).takeWhile (fun x => decide (x ≠ z)) = xs := by
  rw [List.takeWhile_append_of_pos fun x hx => decide_eq_true (ne_of_mem_of_not_mem hx h)]
  simp

/-- A list in which the test never stops is kept whole. -/
theorem takeWhile_ne_self {α : Type} [DecidableEq α] {z : α} {xs : List α} (h : z ∉ xs) :
    xs.takeWhile (fun x => decide (x ≠ z)) = xs :=
  List.takeWhile_eq_self_iff.mpr fun _ hx => decide_eq_true (ne_of_mem_of_not_mem hx h)

/-- PRTTXTZ is PRTTXT of the codes before the first zero code. -/
theorem expand_prttxtz_append {cs : List Byte} (h : 0#8 ∉ cs) (rest : List Byte) :
    (Pseudo.prttxtz (cs ++ 0#8 :: rest)).expand = (Pseudo.prttxt cs).expand :=
  congrArg (List.map Instr.prtc) (takeWhile_ne_append h rest)

/-- PRTTXTZ without a zero code is PRTTXT of all its codes (log entry 13). -/
theorem expand_prttxtz_self {cs : List Byte} (h : 0#8 ∉ cs) :
    (Pseudo.prttxtz cs).expand = (Pseudo.prttxt cs).expand :=
  congrArg (List.map Instr.prtc) (takeWhile_ne_self h)

/-- PRTWTXTZ is PRTWTXT of the codes before the first zero code. -/
theorem expand_prtwtxtz_append {ws : List Page} (h : 0#16 ∉ ws) (rest : List Page) :
    (Pseudo.prtwtxtz (ws ++ 0#16 :: rest)).expand = (Pseudo.prtwtxt ws).expand :=
  congrArg (List.map Instr.prtw) (takeWhile_ne_append h rest)

/-- PRTWTXTZ without a zero code is PRTWTXT of all its codes (log entry 13). -/
theorem expand_prtwtxtz_self {ws : List Page} (h : 0#16 ∉ ws) :
    (Pseudo.prtwtxtz ws).expand = (Pseudo.prtwtxt ws).expand :=
  congrArg (List.map Instr.prtw) (takeWhile_ne_self h)

end Sys2Proof.Machine
end

