-- ==== Sys2Proof/Laws/Step.lean ====
section
/-! SUPPORT. What `step` can do, said once: it takes the command the host presents and executes it, or fails with
IllegalCommand. -/

namespace Sys2Proof.Machine

theorem takeCommand_nil {s : State} (h : s.commands = []) : takeCommand s = none := by
  simp [takeCommand, h]

theorem takeCommand_cons {s : State} {w : CommandWord} {rest : List CommandWord} (h : s.commands = w :: rest) :
    takeCommand s = some (w, { s with commands := rest }) := by
  simp [takeCommand, h]

theorem performWord_of_ok {w : CommandWord} {i : Instr} (s : State) (h : decode w = .ok i) :
    performWord w s = exec i s := by
  simp [performWord, h]

theorem performWord_of_error {w : CommandWord} {e : DecodeError} (s : State) (h : decode w = .error e) :
    performWord w s = .next (respond (failWord .illegalCommand) s) := by
  simp [performWord, h, rejectWord, raiseFail]

/-- Everything a presented word can do. -/
theorem performWord_ends {w : CommandWord} {s t : State} (h : performWord w s = .next t) : Ends s t := by
  unfold performWord at h
  split at h
  · exact exec_ends h
  · cases h; exact .failed _ _

/-- No presented word faults and none is refused. -/
theorem performWord_next (w : CommandWord) (s : State) : ∃ t, performWord w s = .next t := by
  unfold performWord
  split
  · exact exec_next _ _
  · exact ⟨_, rfl⟩

/-- Everything a step can do: a command was presented, it is taken from the port, and it ends. -/
theorem step_eq_next {s t : State} (h : step s = .next t) :
    ∃ w rest, s.commands = w :: rest ∧ performWord w { s with commands := rest } = .next t ∧
      Ends { s with commands := rest } t := by
  cases hc : s.commands with
  | nil => simp [step, takeCommand_nil hc] at h
  | cons w rest =>
    rw [step, takeCommand_cons hc] at h
    exact ⟨w, rest, rfl, h, performWord_ends h⟩

theorem step_of_cons {s : State} {w : CommandWord} {rest : List CommandWord} (h : s.commands = w :: rest) :
    step s = performWord w { s with commands := rest } := by
  rw [step, takeCommand_cons h]

end Sys2Proof.Machine
end

