-- ==== Sys2Proof/Machine/Assembler.lean ====
section
/-! DEFINITION. The textual form of commands and pseudo-instructions (30_encoding R89, R90): one command a line, the
mnemonic, then the operands of its format in the order A, B, V, separated by commas; `;` starts a comment. -/

namespace Sys2Proof.Machine

/-- White space within a line. -/
def isBlank (c : Char) : Bool := c = ' ' || c = '\t'

/-- A line without its comment (30_encoding R89); a quoted semicolon starts none. -/
def stripComment : List Char → List Char
  | [] => []
  | '\'' :: c :: '\'' :: cs => '\'' :: c :: '\'' :: stripComment cs
  | c :: cs => if c = ';' then [] else c :: stripComment cs

/-- Without blanks at either end. -/
def trimBlanks (cs : List Char) : List Char := ((cs.dropWhile isBlank).reverse.dropWhile isBlank).reverse

/-- The value of a digit in base 16, with capital or small letters. -/
def digitValue (c : Char) : Option Nat :=
  if '0'.toNat ≤ c.toNat ∧ c.toNat ≤ '9'.toNat then some (c.toNat - '0'.toNat)
  else if 'a'.toNat ≤ c.toNat ∧ c.toNat ≤ 'f'.toNat then some (c.toNat - 'a'.toNat + 10)
  else if 'A'.toNat ≤ c.toNat ∧ c.toNat ≤ 'F'.toNat then some (c.toNat - 'A'.toNat + 10)
  else none

/-- Digits in a base, after those already read. -/
def digitsFrom (base acc : Nat) : List Char → Option Nat
  | [] => some acc
  | c :: cs =>
    match digitValue c with
    | none => none
    | some d => if d < base then digitsFrom base (acc * base + d) cs else none

/-- An operand: decimal, hexadecimal with 0x, or a quoted ASCII character (30_encoding R89). The rule allows the quoted
form for "a character operand" and says nothing of it elsewhere; here every operand may be written so, standing for its
ASCII code. DESIGN CHOICE, safe: log entry 12. -/
def operandValue : List Char → Option Nat
  | [] => none
  | ['\'', c, '\''] => if c.toNat < 128 then some c.toNat else none
  | '0' :: 'x' :: d :: ds => digitsFrom 16 0 (d :: ds)
  | d :: ds => digitsFrom 10 0 (d :: ds)

/-- What stands between commas, in order; a quoted comma separates nothing. -/
def splitCommas : List Char → List (List Char)
  | [] => [[]]
  | '\'' :: c :: '\'' :: cs =>
    match splitCommas cs with
    | [] => [['\'', c, '\'']]
    | first :: rest => ('\'' :: c :: '\'' :: first) :: rest
  | c :: cs =>
    match splitCommas cs with
    | [] => [[c]]
    | first :: rest => if c = ',' then [] :: first :: rest else (c :: first) :: rest

/-- Every operand's value, or none if one has none. -/
def operandValues : List (List Char) → Option (List Nat)
  | [] => some []
  | o :: os =>
    match operandValue (trimBlanks o), operandValues os with
    | some v, some vs => some (v :: vs)
    | _, _ => none

/-- The values of an operand list; an empty one has no operand. -/
def operandList (cs : List Char) : Option (List Nat) :=
  if trimBlanks cs = [] then some [] else operandValues (splitCommas cs)

/-- A value as an 8-bit operand. -/
def asByte (n : Nat) : Option Byte := if n < 256 then some (BitVec.ofNat 8 n) else none

/-- A value as a 16-bit operand. -/
def asPage (n : Nat) : Option Page := if n < 65536 then some (BitVec.ofNat 16 n) else none

/-- A value as a one-bit operand. -/
def asFlag (n : Nat) : Option Bool := if n < 2 then some (n = 1) else none

/-- A command with no operand (format N). -/
def formatN (i : Instr) : List Nat → Option Instr
  | [] => some i
  | _ => none

/-- A command with two 8-bit operands (formats P and C). -/
def formatC (f : Byte → Byte → Instr) : List Nat → Option Instr
  | [x, y] =>
    match asByte x, asByte y with
    | some a, some b => some (f a b)
    | _, _ => none
  | _ => none

/-- A command with two 8-bit operands and a flag (format CL). -/
def formatCL (f : Byte → Byte → Bool → Instr) : List Nat → Option Instr
  | [x, y, l] =>
    match asByte x, asByte y, asFlag l with
    | some a, some b, some v => some (f a b v)
    | _, _, _ => none
  | _ => none

/-- A command with two 8-bit operands and a 16-bit value (format CV). -/
def formatCV (f : Byte → Byte → Page → Instr) : List Nat → Option Instr
  | [x, y, v] =>
    match asByte x, asByte y, asPage v with
    | some a, some b, some w => some (f a b w)
    | _, _, _ => none
  | _ => none

/-- A command with a flag (format L). -/
def formatL (f : Bool → Instr) : List Nat → Option Instr
  | [l] => (asFlag l).map f
  | _ => none

/-- A command with an 8-bit code (format K8). -/
def formatK8 (f : Byte → Instr) : List Nat → Option Instr
  | [c] => (asByte c).map f
  | _ => none

/-- A command with a 16-bit code (format K16). -/
def formatK16 (f : Page → Instr) : List Nat → Option Instr
  | [w] => (asPage w).map f
  | _ => none

/-- The command of a mnemonic and its operands (30_encoding R89). -/
def commandOf (m : Mnemonic) (os : List Nat) : Option Instr :=
  match m with
  | .SETPIN => formatC .setpin os
  | .BEGIN => formatN .begin os
  | .GFXEN => formatL .gfxen os
  | .GETST => formatN .getst os
  | .SETPX => formatCL .setpx os
  | .GETPX => formatC .getpx os
  | .TGLPX => formatC .tglpx os
  | .SETPG => formatCV .setpg os
  | .GETPG => formatC .getpg os
  | .TGLPG => formatCV .tglpg os
  | .SETALL => formatL .setall os
  | .TGLALL => formatN .tglall os
  | .PNTPG => formatC .pntpg os
  | .PNTALL => formatN .pntall os
  | .PNTPX => formatC .pntpx os
  | .SETTC => formatC .settc os
  | .SETWTC => formatC .setwtc os
  | .PRTC => formatK8 .prtc os
  | .PRTW => formatK16 .prtw os
  | .FILLC => formatK8 .fillc os
  | .FILLW => formatK16 .fillw os

/-- The spelling of a mnemonic (30_encoding R83). -/
def spelling : Mnemonic → List Char
  | .SETPIN => ['S', 'E', 'T', 'P', 'I', 'N']
  | .BEGIN => ['B', 'E', 'G', 'I', 'N']
  | .GFXEN => ['G', 'F', 'X', 'E', 'N']
  | .GETST => ['G', 'E', 'T', 'S', 'T']
  | .SETPX => ['S', 'E', 'T', 'P', 'X']
  | .GETPX => ['G', 'E', 'T', 'P', 'X']
  | .TGLPX => ['T', 'G', 'L', 'P', 'X']
  | .SETPG => ['S', 'E', 'T', 'P', 'G']
  | .GETPG => ['G', 'E', 'T', 'P', 'G']
  | .TGLPG => ['T', 'G', 'L', 'P', 'G']
  | .SETALL => ['S', 'E', 'T', 'A', 'L', 'L']
  | .TGLALL => ['T', 'G', 'L', 'A', 'L', 'L']
  | .PNTPG => ['P', 'N', 'T', 'P', 'G']
  | .PNTALL => ['P', 'N', 'T', 'A', 'L', 'L']
  | .PNTPX => ['P', 'N', 'T', 'P', 'X']
  | .SETTC => ['S', 'E', 'T', 'T', 'C']
  | .SETWTC => ['S', 'E', 'T', 'W', 'T', 'C']
  | .PRTC => ['P', 'R', 'T', 'C']
  | .PRTW => ['P', 'R', 'T', 'W']
  | .FILLC => ['F', 'I', 'L', 'L', 'C']
  | .FILLW => ['F', 'I', 'L', 'L', 'W']

/-- Every value of a list narrowed, or none. -/
def narrowAll {α : Type} (f : Nat → Option α) : List Nat → Option (List α)
  | [] => some []
  | n :: ns =>
    match f n, narrowAll f ns with
    | some a, some as => some (a :: as)
    | _, _ => none

/-- The count n of PRTTXT and PRTWTXT, which must be the number of codes that follow it. -/
def counted : List Nat → Option (List Nat)
  | n :: vs => if n = vs.length then some vs else none
  | [] => none

/-- CONFIG's ten identifiers (30_encoding R90). -/
def configOf : List Byte → Option Pseudo
  | [d0, d1, d2, d3, d4, d5, d6, d7, rs, e] => some (.config d0 d1 d2 d3 d4 d5 d6 d7 rs e)
  | _ => none

/-- The pseudo-instruction of a name and its operands (30_encoding R90). -/
def pseudoOf (name : List Char) (os : List Nat) : Option Pseudo :=
  if name = ['C', 'O', 'N', 'F', 'I', 'G'] then (narrowAll asByte os).bind configOf
  else if name = ['C', 'L', 'R', 'G', 'F', 'X'] then (if os = [] then some .clrgfx else none)
  else if name = ['P', 'R', 'T', 'T', 'X', 'T'] then ((counted os).bind (narrowAll asByte)).map .prttxt
  else if name = ['P', 'R', 'T', 'T', 'X', 'T', 'Z'] then (narrowAll asByte os).map .prttxtz
  else if name = ['P', 'R', 'T', 'W', 'T', 'X', 'T'] then ((counted os).bind (narrowAll asPage)).map .prtwtxt
  else if name = ['P', 'R', 'T', 'W', 'T', 'X', 'T', 'Z'] then (narrowAll asPage os).map .prtwtxtz
  else none

/-- The real commands of a name and its operands: one for a command, the expansion for a pseudo-instruction. -/
def commandsOf (name : List Char) (os : List Nat) : Option (List Instr) :=
  match opcodeTable.find? fun r => spelling r.mnemonic == name with
  | some r => (commandOf r.mnemonic os).map fun i => [i]
  | none => (pseudoOf name os).map Pseudo.expand

/-- A line of assembler text: the real commands it stands for; none where it is no line of this syntax. A line with
nothing but blanks and a comment stands for no command (30_encoding R89). -/
def assembleLine (line : List Char) : Option (List Instr) :=
  let cs := trimBlanks (stripComment line)
  if cs = [] then some []
  else (operandList (cs.dropWhile fun c => !isBlank c)).bind (commandsOf (cs.takeWhile fun c => !isBlank c))

end Sys2Proof.Machine
end

