-- ==== Sys2Proof/Tests/Slice0.lean ====
section
/-! SUPPORT. Tests on fixed values, their expected results from spec/ (95_test_vectors and the examples of the rules), and
for each statement with hypotheses a witness that meets them, with the boundary values of its clauses. -/

namespace Sys2Proof.Tests

open Sys2Proof.Machine

/-! ### Small states -/

/-- The parameters of the vectors (95_test_vectors, opening); delays 1, 2, 3 and the open home bytes 0xA0, 0xB0. -/
def cfg : Config := Config.defaults 1 2 3 0xA0 0xB0

/-- After reset, with every framebuffer entry 0x5A3C. -/
def fresh : State := State.resetWith cfg (Vector.replicate 512 0x5A3C#16)

/-- The standard configuration of 95_test_vectors, before BEGIN. -/
def configured : State := { fresh with pins := #v[2, 3, 4, 5, 6, 7, 8, 9, 10, 11, 0xFF] }

/-- The standard configuration, Initialized. -/
def ready : State := { configured with status := .initialized }

/-- `ready` with the graphic bit enabled. -/
def graphic : State := { ready with gfxEn := true }

/-- A state that no run reaches. -/
def broken : State := { ready with status := .error }

/-- `ready` with one word presented. -/
def presented (w : CommandWord) : State := { ready with commands := [w] }

/-- What is seen of the next state, where there is one. -/
def see {α : Type} (f : State → α) : Result → Option α
  | .next t => some (f t)
  | .fault _ => none
  | .refused _ => none

/-- `C:xx`, `CL:xx`, `D:xx` (43_bus R183). -/
def c (b : Byte) : BusByte := ⟨false, b, .cmdShort⟩
def cl (b : Byte) : BusByte := ⟨false, b, .cmdLong⟩
def d (b : Byte) : BusByte := ⟨true, b, .cmdShort⟩

/-! ### WellFormed -/

/-- 30_encoding R85 (c): the smallest slot that is no slot is refused, the largest slot is not. -/
theorem test_wellFormed_slot : (Instr.setpin 11 0).wellFormed = false ∧ (Instr.setpin 255 0).wellFormed = false ∧
    (Instr.setpin 10 0xFF).wellFormed = true := by decide

/-- The word that the encoder would give an ill-formed SETPIN does not decode. -/
theorem test_illFormed_word : decode (encode (.setpin 11 0)) = .error (.slotOutOfRange 11) := by decide

/-! ### Decode: a word for each constructor, written out from the encoding (30_encoding R80 to R83) -/

-- OP 0000_0001, A = 8, B = 10, V = 0, bit by bit.
theorem test_decode_setpin_bits :
    decode 0b00000001_00001000_00001010_0000000000000000 = .ok (.setpin 8 10) := by decide
theorem test_decode_begin : decode 0x0200000000 = .ok .begin := by decide
theorem test_decode_gfxen : decode 0x0300000001 = .ok (.gfxen true) := by decide
theorem test_decode_getst : decode 0x0400000000 = .ok .getst := by decide
-- OP 0001_0000, A = 17, B = 33, V = 1, bit by bit.
theorem test_decode_setpx_bits :
    decode 0b00010000_00010001_00100001_0000000000000001 = .ok (.setpx 17 33 true) := by decide
theorem test_decode_getpx : decode 0x1110210000 = .ok (.getpx 16 33) := by decide
theorem test_decode_tglpx : decode 0x127F3F0000 = .ok (.tglpx 127 63) := by decide
theorem test_decode_setpg : decode 0x13073FA5C3 = .ok (.setpg 7 63 0xA5C3) := by decide
theorem test_decode_getpg : decode 0x1401210000 = .ok (.getpg 1 33) := by decide
theorem test_decode_tglpg : decode 0x1500010F0F = .ok (.tglpg 0 1 0x0F0F) := by decide
theorem test_decode_setall : decode 0x1600000001 = .ok (.setall true) := by decide
theorem test_decode_tglall : decode 0x1700000000 = .ok .tglall := by decide
-- OP 0010_0000, A = 3, B = 40, V = 0, bit by bit.
theorem test_decode_pntpg_bits :
    decode 0b00100000_00000011_00101000_0000000000000000 = .ok (.pntpg 3 40) := by decide
theorem test_decode_pntall : decode 0x2100000000 = .ok .pntall := by decide
theorem test_decode_pntpx : decode 0x221F210000 = .ok (.pntpx 31 33) := by decide
-- OP 0100_0000, A = 3, B = 5, V = 0, bit by bit.
theorem test_decode_settc_bits :
    decode 0b01000000_00000011_00000101_0000000000000000 = .ok (.settc 3 5) := by decide
theorem test_decode_setwtc : decode 0x4107050000 = .ok (.setwtc 7 5) := by decide
theorem test_decode_prtc : decode 0x4200000041 = .ok (.prtc 0x41) := by decide
theorem test_decode_prtw : decode 0x430000B0A1 = .ok (.prtw 0xB0A1) := by decide
theorem test_decode_fillc : decode 0x4400000020 = .ok (.fillc 0x20) := by decide
theorem test_decode_fillw : decode 0x450000A1A1 = .ok (.fillw 0xA1A1) := by decide

/-- 95_test_vectors 2.7: fields that must be zero, format by format; format CV has none. -/
theorem test_decode_nonzero_field :
    decode 0x0201000000 = .error (.nonzeroField .BEGIN) ∧ decode 0x1000000002 = .error (.nonzeroField .SETPX) ∧
    decode 0x1100000001 = .error (.nonzeroField .GETPX) ∧ decode 0x4200000141 = .error (.nonzeroField .PRTC) ∧
    decode 0x4301000041 = .error (.nonzeroField .PRTW) ∧ decode 0x1600010001 = .error (.nonzeroField .SETALL) ∧
    decode 0x0100050001 = .error (.nonzeroField .SETPIN) ∧ decode 0x13073FFFFF = .ok (.setpg 7 63 0xFFFF) := by decide

/-- 95_test_vectors 2.7: the edges of each reserved range of OP. -/
theorem test_decode_reserved_op :
    (∀ op ∈ ([0x00, 0x05, 0x0F, 0x18, 0x1F, 0x23, 0x3F, 0x46, 0xFF] : List Byte),
      decode (packWord op 0 0 0) = .error (.unlistedOpcode op)) := by decide

/-- The host's view of a word, and that no bit above the table's forty is read. -/
theorem test_decodeTableWord : decodeTableWord 40 0x1011210001 = some (.setpx 17 33 true) ∧
    decodeTableWord 40 0x010B000000 = none ∧ decodeTableWord 48 0x011011210001 = none := by decide

/-- The word is placed where the next step takes it, and the step runs it. -/
theorem test_withFetchWord : see (fun t => (t.responses, t.commands)) (step (fresh.withFetchWord 40 0x0400000000)) =
    some ([0x00000], []) := by decide

/-! ### Configuration (95_test_vectors 2.2) -/

theorem test_setpin : see (fun t => (pin t 8, pin t 7, t.status, t.imode, t.responses)) (exec (.setpin 8 10) ready) =
    some (0x0A, 9, .uninitialized, .unknown, [0x00000]) := by decide
theorem test_setpin_reserved_slot : see (fun t => (pin t 10, t.status)) (exec (.setpin 10 0xFE) ready) =
    some (0xFE, .uninitialized) := by decide
theorem test_begin : see (fun t => (t.trace, t.status, t.responses)) (exec .begin configured) =
    some ([2, 3, 4, 5, 6, 7, 8, 9, 10, 11].map fun p => .setPinMode p .output, .initialized, [0x00000]) := by decide
-- Slot 3 holds 0x80, the smallest unset identifier.
theorem test_begin_unset : see (fun t => (t.trace, t.status, t.responses)) (exec .begin (setPin 3 0x80 configured)) =
    some ([], .uninitialized, [0xA0000]) := by decide
theorem test_gfxen : see (fun t => (t.gfxEn, t.trace, t.responses)) (exec (.gfxen true) ready) =
    some (true, [], [0x00000]) := by decide
theorem test_gfxen_gate : see (fun t => (t.gfxEn, t.responses)) (exec (.gfxen true) fresh) =
    some (false, [0x90000]) := by decide
theorem test_getst : see (·.responses) (exec .getst ready) = some [0x00001] := by decide
theorem test_getst_error : see (·.responses) (exec .getst broken) = some [0x00002] := by decide

/-! ### Framebuffer (95_test_vectors 2.3) -/

theorem test_setpx : see (fun t => (fbRead t 265, fbRead t 264)) (exec (.setpx 17 33 true) (fbWrite 265 0 ready)) =
    some (0x4000, 0x5A3C) := by decide +kernel
theorem test_setpx_clear : see (fbRead · 265) (exec (.setpx 17 33 false) (fbWrite 265 0xFFFF ready)) =
    some 0xBFFF := by decide +kernel
theorem test_getpx : see (·.responses) (exec (.getpx 17 33) (fbWrite 265 0x4000 ready)) = some [0x00001] := by
  decide +kernel
theorem test_getpx_neighbour : see (·.responses) (exec (.getpx 16 33) (fbWrite 265 0x4000 ready)) = some [0x00000] := by
  decide +kernel
theorem test_tglpx : see (fbRead · 0) (exec (.tglpx 0 0) (fbWrite 0 0x8001 ready)) = some 0x0001 := by decide +kernel
theorem test_setpg : see (fun t => (fbRead t 511, fbRead t 510)) (exec (.setpg 7 63 0xA5C3) ready) =
    some (0xA5C3, 0x5A3C) := by decide +kernel
theorem test_getpg : see (·.responses) (exec (.getpg 7 63) (fbWrite 511 0xA5C3 ready)) = some [0x0A5C3] := by
  decide +kernel
theorem test_getpg_all_ones : see (·.responses) (exec (.getpg 0 0) (fbWrite 0 0xFFFF ready)) = some [0x0FFFF] := by
  decide +kernel
theorem test_tglpg : see (fbRead · 8) (exec (.tglpg 0 1 0x0F0F) (fbWrite 8 0x00FF ready)) = some 0x0FF0 := by
  decide +kernel
-- The range check comes before the zero-mask no-op.
theorem test_tglpg_range : see (·.responses) (exec (.tglpg 8 0 0) ready) = some [0xB0000] := by decide
theorem test_setall : see (fun t => (fbRead t 0, fbRead t 511)) (exec (.setall true) ready) =
    some (0xFFFF, 0xFFFF) := by decide +kernel
theorem test_tglall : see (fun t => (fbRead t 0, fbRead t 511)) (exec .tglall (fbWrite 0 0x0000 ready)) =
    some (0xFFFF, 0xA5C3) := by decide +kernel

/-! ### Translator (95_test_vectors 2.1, S6) -/

theorem test_pixelToBufferIndex : pixelToBufferIndex 17 33 = some ⟨265, 9, 1, 14⟩ ∧
    pixelToBufferIndex 0 32 = some ⟨256, 8, 0, 15⟩ ∧ pixelToBufferIndex 127 63 = some ⟨511, 15, 31, 0⟩ ∧
    pixelToBufferIndex 128 0 = none ∧ pixelToBufferIndex 0 64 = none := by decide
theorem test_pageToBufferIndex : pageToBufferIndex 3 40 = some ⟨323, 11, 8⟩ ∧
    pageToBufferIndex 7 31 = some ⟨255, 7, 31⟩ ∧ pageToBufferIndex 8 0 = none := by decide
theorem test_textToWideTextAddSpace : textToWideTextAddSpace 3 5 = some ⟨9, 1, true⟩ ∧
    textToWideTextAddSpace 15 3 = some ⟨7, 3, true⟩ ∧ textToWideTextAddSpace 0 4 = some ⟨8, 0, false⟩ ∧
    textToWideTextAddSpace 16 0 = none := by decide
theorem test_wideTextToWideText : wideTextToWideText 5 6 = some ⟨13, 2⟩ ∧ wideTextToWideText 7 7 = some ⟨15, 3⟩ ∧
    wideTextToWideText 0 8 = none := by decide

/-! ### Bus (95_test_vectors 2.4) -/

-- `D:41` in full.
theorem test_busEvents : busEvents ready (d 0x41) =
    [.writePin 11 false, .writePin 10 true, .sleepMicros .settle, .writePin 9 false, .writePin 8 true,
      .writePin 7 false, .writePin 6 false, .writePin 5 false, .writePin 4 false, .writePin 3 false, .writePin 2 true,
      .writePin 11 true, .sleepMicros .settle, .writePin 11 false, .sleepMicros .cmdShort] := by decide
theorem test_modeSelect : modeSelect cfg true true = cl 0x36 ∧ modeSelect cfg false true = cl 0x34 ∧
    modeSelect cfg true false = cl 0x30 := by decide
theorem test_lineLevel : lineLevel 2 [] = none ∧ lineLevel 2 (sendByte (d 0x41) ready).trace = some true ∧
    lineDirection 2 [.setPinMode 2 .output] = some .output := by decide

/-! ### Paint (95_test_vectors 2.5) -/

theorem test_pntpg : see (·.trace) (exec (.pntpg 3 40) (fbWrite 323 0x1234 graphic)) =
    some (eventsOf graphic [cl 0x36, c 0x88, c 0x8B, d 0x12, d 0x34]) := by decide +kernel
theorem test_pntpg_range : see (fun t => (t.trace, t.imode, t.responses)) (exec (.pntpg 0 64) ready) =
    some ([], .unknown, [0xB0000]) := by decide
-- The last row: address 0xBF, then horizontal address 0, although row 63 is folded in PNTPG.
theorem test_pntall_last_row : (rowBytes (fbWrite 511 0xA5C2 graphic) 63).take 2 = [c 0xBF, c 0x80] ∧
    (rowBytes (fbWrite 511 0xA5C2 graphic) 63).drop 16 = [d 0xA5, d 0xC2] := by decide +kernel
theorem test_pntall_gate : see (fun t => (t.trace, t.responses)) (exec .pntall fresh) = some ([], [0x90000]) := by decide
theorem test_pntpx : see (fun t => (t.trace, t.imode)) (exec (.pntpx 31 33) (fbWrite 265 0x4000 ready)) =
    some (eventsOf ready [cl 0x34, c 0x81, c 0x89, d 0x40, d 0x00], .extended) := by decide +kernel

/-! ### Text (95_test_vectors 2.6) -/

theorem test_settc : see (fun t => (t.trace, t.imode)) (exec (.settc 3 5) ready) =
    some (eventsOf ready ([cl 0x30, c 0x90] ++ List.replicate 9 (c 0x14) ++ [d 0x20]), .basic) := by decide +kernel
-- The open home byte of native row 2.
theorem test_settc_open_home : see (·.trace) (exec (.settc 0 2) ready) =
    some (eventsOf ready [cl 0x30, c 0xA0]) := by decide +kernel
theorem test_setwtc : see (·.trace) (exec (.setwtc 5 6) ready) =
    some (eventsOf ready ([cl 0x30, c 0xA0] ++ List.replicate 13 (c 0x14))) := by decide +kernel
theorem test_prtc : see (fun t => (t.trace, t.imode)) (exec (.prtc 0x41) ready) =
    some (eventsOf ready [d 0x41], .unknown) := by decide +kernel
theorem test_prtw : see (·.trace) (exec (.prtw 0xB0A1) ready) = some (eventsOf ready [d 0xB0, d 0xA1]) := by
  decide +kernel
theorem test_fillc : see (fun t => (t.trace.length, t.trace.take 30)) (exec (.fillc 0x20) graphic) =
    some (15 * 67, eventsOf ready [cl 0x30, c 0x80]) := by decide +kernel
theorem test_fillw : fillBytes ((List.replicate 2 (dataPage 0xB0A1)).flatten) =
    [c 0x80, d 0xB0, d 0xA1, d 0xB0, d 0xA1, c 0x90, d 0xB0, d 0xA1, d 0xB0, d 0xA1] := by decide

/-! ### Assembler and pseudo-instructions (30_encoding R89, R90; 95_test_vectors 2.6) -/

theorem test_assemble : assembleLine "SETPX 17, 33, 1".toList = some [.setpx 17 33 true] ∧
    assembleLine "  PRTC 'A' ; a letter".toList = some [.prtc 0x41] ∧
    assembleLine "SETPG 7, 63, 0xA5C3".toList = some [.setpg 7 63 0xA5C3] ∧
    assembleLine "BEGIN".toList = some [.begin] ∧ assembleLine "; nothing".toList = some [] := by decide +kernel
-- A quoted comma and a quoted semicolon are characters.
theorem test_assemble_quotes : assembleLine "PRTTXT 3, ',', ';', 'b'".toList = some [.prtc 0x2C, .prtc 0x3B, .prtc 0x62] := by
  decide +kernel
theorem test_assemble_rejects : assembleLine "SETPX 17, 33".toList = none ∧ assembleLine "SETPX 256, 0, 1".toList = none ∧
    assembleLine "PRTTXT 2, 'H'".toList = none ∧ assembleLine "NOP".toList = none := by decide +kernel
theorem test_pseudo_prttxtz : (Pseudo.prttxtz [0x61, 0, 0x62]).expand = [.prtc 0x61] ∧
    (Pseudo.prttxt [0x61, 0, 0x62]).expand = [.prtc 0x61, .prtc 0, .prtc 0x62] ∧ (Pseudo.prttxt []).expand = [] := by
  decide
theorem test_pseudo_prtwtxtz : (Pseudo.prtwtxtz [0xA1A2, 0, 0x62]).expand = [.prtw 0xA1A2] ∧
    (Pseudo.prtwtxt [0xA1A2, 0xA1A3]).expand = [.prtw 0xA1A2, .prtw 0xA1A3] := by decide
theorem test_overallSuccess : overallSuccess [0x00000, 0x00001] = true ∧ overallSuccess [0x00000, 0x90000] = false := by
  decide
-- PNTPG's duration, 10 S + 4 H + L, with S, H, L = 1, 2, 3 (70_reset R302).
theorem test_minimumMicros : minimumMicros cfg
    (eventsOf ready [cl 0x36, c 0x88, c 0x8B, d 0x12, d 0x34]) = 10 * 1 + 4 * 2 + 3 := by decide +kernel

/-! ### Memory -/

/-- The canonical form tells a memory that lists every index once from one that does not. -/
theorem test_memory_wf : Memory.wf (fbCells fresh) = true ∧ Memory.wf [(0, 0#16), (0, 1#16)] = false ∧
    Memory.wf ((fbCells fresh).drop 1) = false := by decide +kernel

/-! ### Witnesses: states and operands that meet the hypotheses of each statement -/

theorem witness_DecodeOfEncode : (Instr.setpin 10 0xFF).wellFormed = true ∧ (Instr.begin).wellFormed = true := by decide
theorem witness_EncodeOfDecode : decode 0x010AFF0000 = .ok (.setpin 10 0xFF) := by decide
theorem witness_OpcodeRowsExclusive : ∃ r ∈ opcodeTable, (0x45000000FF : CommandWord) &&& r.mask = r.matchBits :=
  ⟨⟨.FILLW, 0x45, 0x4500000000, 0xFFFFFF0000⟩, by decide, by decide⟩
/-- Both clauses: an unmatched word, a SETPIN of slot 11, and a SETPIN of slot 10, which is a command. -/
theorem witness_IllegalWordHasNoEffect :
    (∀ r ∈ opcodeTable, (0x0500000000 : CommandWord) &&& r.mask ≠ r.matchBits) ∧
    (fieldOP 0x010B000000 = 0x01#8 ∧ 10 < (fieldA 0x010B000000).toNat) ∧
    ¬ ((∀ r ∈ opcodeTable, (0x010A000000 : CommandWord) &&& r.mask ≠ r.matchBits) ∨
      (fieldOP 0x010A000000 = 0x01#8 ∧ 10 < (fieldA 0x010A000000).toNat)) := by decide
theorem witness_StepRunsDecodedCommand : decode 0x0400000000 = .ok .getst ∧
    (presented 0x0400000000).commands = 0x0400000000 :: [] := by decide
theorem witness_NoCommandNoStep : ready.commands = [] := by decide
theorem witness_OneResponsePerCommand : (presented 0x0500000000).commands = 0x0500000000 :: [] := by decide
theorem witness_InvAtReset : ready.cfg.wf = true := by decide
theorem witness_StepKeepsInv : ({ ready with commands := [0x01000B0000] } : State).Inv ∧
    (see (fun t => t.status) (step { ready with commands := [0x01000B0000] })).isSome = true := by decide +kernel
/-- A command that fails, so that the clause about FAIL = 1 speaks of something. -/
theorem witness_FailedCommandHasNoEffect : see (fun t => t.responses.map fieldFAIL) (performWord 0x1700000000 fresh) =
    some [true] := by decide
theorem witness_ResponsesAreLawful : (see (fun t => t.status) (step (presented 0x2008000000))).isSome = true := by decide
/-- Each clause: an illegal word; a gated command, also out of range, not Initialized; out of range, Initialized. -/
theorem witness_FailurePriority :
    decode 0x1000000002 = .error (.nonzeroField .SETPX) ∧ decode 0x11C8C80000 = .ok (.getpx 200 200) ∧
    gated (.getpx 200 200) = true ∧ fresh.status ≠ .initialized ∧ ready.status = .initialized ∧
    outOfRange (.getpx 200 200) = true ∧ see (·.responses) (performWord 0x0200000000 fresh) = some [0xA0000] := by decide
/-- One word for each of the five causes; the gate before the range, and BEGIN with slot 9 unset. -/
theorem witness_CauseOfEveryResponse : decode 0x0500000000 = .error (.unlistedOpcode 0x05) ∧
    decode 0x11C8C80000 = .ok (.getpx 200 200) ∧ decode 0x0200000000 = .ok .begin ∧ decode 0x0400000000 = .ok .getst ∧
    gated (.getpx 200 200) = true ∧ fresh.status ≠ .initialized ∧ ready.status = .initialized ∧
    outOfRange (.getpx 200 200) = true ∧ 0x80 ≤ (pin fresh 9).toNat := by decide
/-- Both sides of the equivalence at the edges of the coordinates. -/
theorem witness_SuccessExactly : completes (.setpx 127 63 true) ready = true ∧ completes (.setpx 128 63 true) ready = false ∧
    completes (.settc 15 7) ready = true ∧ completes (.setwtc 8 7) ready = false ∧ completes .begin configured = true ∧
    completes .begin fresh = false ∧ completes (.setpin 11 0) ready = false ∧ completes .getst broken = true := by decide
theorem witness_StatusTransitions : see (fun t => t.status) (exec .begin configured) = some .initialized := by decide
/-- One command for each premise. -/
theorem witness_WhoWritesWhat : (see (fun t => t.status) (exec .getst ready)).isSome = true ∧
    writesFramebuffer (.pntpg 0 0) = false ∧ selectsMode .getst = none ∧ selectsMode (.fillc 0) = some .basic ∧
    completes (.fillc 0) ready = true ∧ Instr.getst ≠ .begin := by decide +kernel
theorem witness_SlotTenIsNeverRead : ∀ id', Instr.begin ≠ .setpin 10 id' := by intro id' h; cases h
theorem witness_SetpinWritesOneSlot : (10 : Byte).toNat ≤ 10 ∧ 10 < (11 : Byte).toNat := by decide
theorem witness_BeginValidatesAndSetsDirections : configured.cfg.wf = true ∧
    (∀ k : Fin 11, k.val < 10 → (pin (setPin 3 0x7F configured) k).toNat ≤ 0x7F) ∧
    ∃ k : Fin 11, k.val < 10 ∧ 0x80 ≤ (pin (setPin 9 0x80 configured) k).toNat := by decide
theorem witness_GfxenWritesFlag : ready.status = .initialized ∧ broken.status ≠ .initialized := by decide
theorem witness_GetstReturnsStatus : fresh.status = .uninitialized ∧ ready.status = .initialized ∧
    broken.status = .error := by decide
theorem witness_SetpxWritesOneBit : ready.status = .initialized ∧ (127 : Byte).toNat < 128 ∧ (63 : Byte).toNat < 64 ∧
    fresh.status ≠ .initialized ∧ 128 ≤ (128 : Byte).toNat ∧ 64 ≤ (64 : Byte).toNat := by decide
theorem witness_GetpxReadsOneBit : ready.status = .initialized ∧ (127 : Byte).toNat < 128 ∧ (63 : Byte).toNat < 64 ∧
    (511 : EntryIndex).toNat = 8 * (63 : Byte).toNat + (127 : Byte).toNat / 16 ∧ fresh.status ≠ .initialized ∧
    128 ≤ (128 : Byte).toNat := by decide
theorem witness_TglpxInvertsOneBit : ready.status = .initialized ∧ (0 : Byte).toNat < 128 ∧ (63 : Byte).toNat < 64 ∧
    broken.status ≠ .initialized ∧ 64 ≤ (64 : Byte).toNat := by decide
theorem witness_SetpgWritesOneEntry : ready.status = .initialized ∧ (7 : Byte).toNat < 8 ∧ (63 : Byte).toNat < 64 ∧
    (15 : Nat) < 16 ∧ (127 : Byte).toNat = 16 * (7 : Byte).toNat + 15 ∧ fresh.status ≠ .initialized ∧
    8 ≤ (8 : Byte).toNat ∧ 64 ≤ (64 : Byte).toNat := by decide
theorem witness_GetpgReadsOneEntry : ready.status = .initialized ∧ (7 : Byte).toNat < 8 ∧ (63 : Byte).toNat < 64 ∧
    (511 : EntryIndex).toNat = 8 * (63 : Byte).toNat + (7 : Byte).toNat ∧ fresh.status ≠ .initialized ∧
    8 ≤ (8 : Byte).toNat := by decide
theorem witness_TglpgXorsOneEntry : ready.status = .initialized ∧ (7 : Byte).toNat < 8 ∧ (0 : Byte).toNat < 64 ∧
    (0x0000 : Page) = 0#16 ∧ fresh.status ≠ .initialized ∧ 64 ≤ (64 : Byte).toNat := by decide
theorem witness_SetallFillsEveryEntry : ready.status = .initialized ∧ (127 : Byte).toNat < 128 ∧ (63 : Byte).toNat < 64 ∧
    fresh.status ≠ .initialized := by decide
theorem witness_TglallComplementsEveryEntry : ready.status = .initialized ∧ fresh.status ≠ .initialized := by decide
/-- A neighbouring pixel in the same entry, in the same row and in the same column, each read before. -/
theorem witness_PixelReadsBackAndOthersStay : ready.status = .initialized ∧ (17 : Byte).toNat < 128 ∧
    (33 : Byte).toNat < 64 ∧ ((16 : Byte) ≠ 17 ∨ (33 : Byte) ≠ 33) ∧
    see (·.responses) (exec (.getpx 16 33) ready) = see (·.responses) (onlyResponse ready 0x00000) := by decide +kernel
theorem witness_FoldIsABijection : (7 : Nat) < 8 ∧ (31 : Nat) < 64 ∧ (32 : Nat) < 64 ∧ fold 7 31 = ⟨7, 31⟩ ∧
    fold 7 32 = ⟨15, 0⟩ ∧ fold 0 63 = ⟨8, 31⟩ := by decide
theorem witness_PixelTranslation : (127 : Byte).toNat < 128 ∧ (63 : Byte).toNat < 64 ∧ 128 ≤ (128 : Byte).toNat ∧
    64 ≤ (64 : Byte).toNat := by decide
theorem witness_PageTranslation : (7 : Byte).toNat < 8 ∧ (31 : Byte).toNat < 64 ∧ (32 : Byte).toNat < 64 ∧
    pageToBufferIndex 7 31 = some ⟨255, 7, 31⟩ ∧ pageToBufferIndex 0 32 = some ⟨256, 8, 0⟩ ∧
    8 ≤ (8 : Byte).toNat := by decide
theorem witness_NarrowTextTranslation : (15 : Byte).toNat < 16 ∧ (3 : Byte).toNat < 8 ∧ (4 : Byte).toNat < 8 ∧
    16 ≤ (16 : Byte).toNat ∧ 8 ≤ (8 : Byte).toNat := by decide
theorem witness_WideTextTranslation : (7 : Byte).toNat < 8 ∧ (3 : Byte).toNat < 8 ∧ (4 : Byte).toNat < 8 ∧
    8 ≤ (8 : Byte).toNat := by decide
theorem witness_WideTextIsNarrowTextAtEvenColumn : (7 : Byte).toNat < 8 ∧ wideTextToWideText 7 7 = some ⟨15, 3⟩ ∧
    textToWideTextAddSpace 14 7 = some ⟨15, 3, false⟩ := by decide
theorem witness_SendByteIsFifteenEvents : ready.cfg.wf = true := by decide
theorem witness_LinesAfterBusByte : ready.cfg.wf = true ∧
    ∀ j k : Fin 11, j.val < 10 → k.val < 10 → pin ready j = pin ready k → j = k := by decide
theorem witness_LongDelayOnlyAfterModeSelect : completes (.settc 15 7) ready = true ∧ Instr.settc 15 7 ≠ .begin ∧
    selectsMode (.settc 15 7) = some .basic ∧ completes (.prtc 0) ready = true ∧ selectsMode (.prtc 0) = none := by decide
theorem witness_BusByteCountsAndDurations : ready.cfg.wf = true ∧ completes .pntall ready = true ∧
    Instr.pntall ≠ .begin ∧ ready.cfg.fillNarrow = 32 ∧ busByteCount ready.cfg .pntall = 1153 ∧
    busByteCount ready.cfg (.fillw 0) = 67 ∧ busByteCount ready.cfg (.settc 15 7) = 18 := by decide
theorem witness_PntpgSendsOnePage : ready.status = .initialized ∧ (7 : Byte).toNat < 8 ∧ (63 : Byte).toNat < 64 ∧
    (511 : EntryIndex).toNat = 8 * (63 : Byte).toNat + (7 : Byte).toNat ∧ ready.cfg.wf = true ∧
    fresh.status ≠ .initialized ∧ 8 ≤ (8 : Byte).toNat ∧ 64 ≤ (64 : Byte).toNat := by decide
theorem witness_PntallStreamsEveryEntry : ready.status = .initialized ∧ (63 : Nat) < 64 ∧ (7 : Nat) < 8 ∧
    (511 : EntryIndex).toNat = 8 * 63 + 7 ∧ ready.cfg.wf = true ∧ fresh.status ≠ .initialized := by decide
theorem witness_PntpxPaintsContainingPage : ready.status = .initialized ∧ (127 : Byte).toNat < 128 ∧
    (63 : Byte).toNat < 64 ∧ fresh.status ≠ .initialized ∧ 128 ≤ (128 : Byte).toNat ∧ 64 ≤ (64 : Byte).toNat := by decide
theorem witness_ClrgfxClearsAndPaints : ready.status = .initialized ∧ fresh.status ≠ .initialized := by decide
theorem witness_SettcPositionsCursor : ready.status = .initialized ∧ (15 : Byte).toNat < 16 ∧ (7 : Byte).toNat < 8 ∧
    fresh.status ≠ .initialized ∧ 16 ≤ (16 : Byte).toNat ∧ 8 ≤ (8 : Byte).toNat := by decide
theorem witness_SetwtcPositionsCursor : ready.status = .initialized ∧ (7 : Byte).toNat < 8 ∧
    fresh.status ≠ .initialized ∧ 8 ≤ (8 : Byte).toNat := by decide
theorem witness_SetwtcIsSettcAtEvenColumn : (7 : Byte).toNat < 8 := by decide
theorem witness_PrtcSendsOneByte : ready.status = .initialized ∧ fresh.status ≠ .initialized := by decide
theorem witness_PrtwSendsTwoBytes : ready.status = .initialized ∧ fresh.status ≠ .initialized := by decide
theorem witness_PrtwIsPrtcTwice : ready.status = .initialized := by decide
theorem witness_FillcFillsBothRows : ready.status = .initialized ∧ fresh.status ≠ .initialized := by decide
theorem witness_FillwFillsBothRows : ready.status = .initialized ∧ fresh.status ≠ .initialized ∧
    (15 : Nat) < ready.cfg.fillWide := by decide
/-- Each form: counted, with a zero among the codes; unlengthed, ended by a zero code; unlengthed without one. -/
theorem witness_TextRunSendsEachCode : ready.commands = [] ∧ ready.status = .initialized ∧ fresh.commands = [] ∧
    fresh.status ≠ .initialized ∧ (0#8 ∉ ([0x61, 0x62] : List Byte)) ∧
    Pseudo.prttxtz [0x61, 0x62, 0, 0x63] = .prttxtz ([0x61, 0x62] ++ 0#8 :: [0x63]) ∧
    (0#8 ∉ ([] : List Byte)) ∧ Pseudo.prttxtz [0] = .prttxtz ([] ++ 0#8 :: []) := by decide
theorem witness_WideTextRunSendsEachCode : ready.commands = [] ∧ ready.status = .initialized ∧ fresh.commands = [] ∧
    fresh.status ≠ .initialized ∧ (0#16 ∉ ([0xA100, 0x00A2] : List Page)) ∧
    Pseudo.prtwtxtz [0xA100, 0x00A2, 0, 0x63] = .prtwtxtz ([0xA100, 0x00A2] ++ 0#16 :: [0x63]) := by decide
theorem witness_BootSequenceInitializes : fresh.commands = [] ∧ fresh.cfg.wf = true ∧
    ∀ id ∈ ([2, 3, 4, 5, 6, 7, 8, 9, 10, 0x7F] : List Byte), id.toNat ≤ 0x7F := by decide

end Sys2Proof.Tests
end

section
/-! The statements about one step (00_scope R6, R7): which command it carries out, when there is none, and what of a
command's ending every command shares. -/

namespace Sys2Proof.Machine

/-! ### What every ending of a command shares -/

/-- Exactly one response is added (00_scope R7). -/
theorem Ends.responses_eq {s t : State} (h : Ends s t) : ∃ r, t.responses = s.responses ++ [r] := by
  rcases h with ⟨c, rfl⟩ | ⟨v, u, rfl, hd⟩
  · exact ⟨failWord c, rfl⟩
  · exact ⟨okWord v, by rw [respond_responses, hd.responses]⟩

/-- The trace is only appended to (10_state R32). -/
theorem Ends.trace_eq {s t : State} (h : Ends s t) : ∃ es, t.trace = s.trace ++ es := by
  rcases h with ⟨c, rfl⟩ | ⟨v, u, rfl, hd⟩
  · exact ⟨[], (List.append_nil _).symm⟩
  · exact hd.trace

theorem Ends.commands_eq {s t : State} (h : Ends s t) : t.commands = s.commands := by
  rcases h with ⟨c, rfl⟩ | ⟨v, u, rfl, hd⟩
  · rfl
  · exact hd.commands

theorem Ends.cfg_eq {s t : State} (h : Ends s t) : t.cfg = s.cfg := by
  rcases h with ⟨c, rfl⟩ | ⟨v, u, rfl, hd⟩
  · rfl
  · exact hd.cfg

/-! ### Which command a step carries out -/

theorem step_of_nil {s : State} (h : s.commands = []) : step s = .fault .noCommand := by
  rw [step, takeCommand_nil h]

/-- A presented word always has a next state, in which its command has ended. -/
theorem step_ends_of_cons {s : State} {w : CommandWord} {rest : List CommandWord} (h : s.commands = w :: rest) :
    ∃ t, step s = .next t ∧ Ends { s with commands := rest } t := by
  obtain ⟨t, ht⟩ := performWord_next w { s with commands := rest }
  exact ⟨t, by rw [step_of_cons h, ht], performWord_ends ht⟩

theorem tableWord_toNat (w : CommandWord) : tableWord 40 w.toNat = w := by
  rw [tableWord, Nat.mod_eq_of_lt w.isLt, BitVec.ofNat_toNat, BitVec.setWidth_eq]

/-- The word placed at the port is the one the step takes, and taking it gives the state back. -/
theorem step_withFetchWord (s : State) (w : CommandWord) : step (s.withFetchWord 40 w.toNat) = performWord w s := by
  rw [State.withFetchWord, tableWord_toNat, step_of_cons (placeCommand_commands w s)]
  rfl

end Sys2Proof.Machine

open Sys2Proof.Machine

/-- Settles O8: a presented word's command ends, by `step_ends_of_cons`, and every ending has the four parts. -/
theorem oneResponsePerCommand : Obligations.OneResponsePerCommand := by
  intro s w rest h
  obtain ⟨t, ht, hends⟩ := step_ends_of_cons h
  obtain ⟨r, hr⟩ := hends.responses_eq
  obtain ⟨es, hes⟩ := hends.trace_eq
  exact ⟨t, r, es, ht, hr, hes, hends.commands_eq, hends.cfg_eq⟩

/-- Settles O6: `step` takes the first word, and `performWord` of a word that decodes is `exec`. -/
theorem stepRunsDecodedCommand : Obligations.StepRunsDecodedCommand := by
  intro s w
  refine ⟨fun rest h => step_of_cons h, fun i rest h hi => ?_, fun i hi => ?_⟩
  · rw [step_of_cons h, performWord_of_ok _ hi]
  · rw [step_withFetchWord, performWord_of_ok _ hi]

/-- Settles O7: an empty port has no command to take. -/
theorem noCommandNoStep : Obligations.NoCommandNoStep := fun _ => step_of_nil
end

section
/-! The invariant of the block (10_state R24, R26; 00_scope R10): it holds after reset, and every step keeps it. -/

namespace Sys2Proof.Machine

/-- The invariant speaks of the parameters, the pins and the status alone. -/
theorem State.Inv.congr {s t : State} (h : s.Inv) (hc : t.cfg = s.cfg) (hp : t.pins = s.pins)
    (hs : t.status = s.status) : t.Inv := by
  obtain ⟨hwf, hpins, herr⟩ := h
  exact ⟨hc ▸ hwf, by simpa only [PinsGuard, pin, hp, hs] using hpins, hs ▸ herr⟩

/-- A command that succeeds keeps the invariant: it leaves pins and status alone, or makes the status Uninitialized, or
has seen ten valid pins and makes it Initialized. -/
theorem Done.inv {s u : State} (h : Done s u) (hi : s.Inv) : u.Inv := by
  have hwf : u.cfg.wf = true := h.cfg ▸ hi.1
  rcases h.control with ⟨hp, hs⟩ | ⟨k, id, rfl⟩ | ⟨hv, rfl⟩
  · exact hi.congr h.cfg hp hs
  · exact ⟨hwf, nofun, nofun⟩
  · exact ⟨hwf, fun _ => (requiredPinsValid_iff s).mp hv, nofun⟩

/-- A failure adds a response alone, of which the invariant does not speak. -/
theorem Ends.inv {s t : State} (h : Ends s t) (hi : s.Inv) : t.Inv := by
  rcases h with ⟨c, rfl⟩ | ⟨v, u, rfl, hd⟩
  · exact hi.congr rfl rfl rfl
  · exact (hd.inv hi).congr rfl rfl rfl

theorem config_chip_wf : Config.chip.wf = true := by
  unfold Config.chip
  split
  · assumption
  · decide

theorem inv_resetWith {cfg : Config} (h : cfg.wf = true) (fb : Vector Page 512) : (State.resetWith cfg fb).Inv :=
  ⟨h, nofun, nofun⟩

end Sys2Proof.Machine

open Sys2Proof.Machine

/-- Settles O12: taking the word from the port touches nothing the invariant speaks of, and every ending of a command
keeps it. -/
theorem stepKeepsInv : Obligations.StepKeepsInv := by
  intro s t hi h
  obtain ⟨w, rest, -, -, hends⟩ := step_eq_next h
  exact hends.inv (hi.congr rfl rfl rfl)

/-- Settles O11: a reset leaves the status Uninitialized, and the parameters are lawful in both cases. -/
theorem invAtReset : Obligations.InvAtReset :=
  ⟨inv_resetWith config_chip_wf _, fun _ fb h => inv_resetWith h fb⟩
end

section
/-! Which command writes which element of the state (10_state R20, R24; 20_memory R55): one inversion of `exec` by the
kinds of commands, and from it the frame of every element. -/

namespace Sys2Proof.Machine

/-! ### Where a failure comes from -/

theorem pixelToBufferIndex_eq_none_iff {cx cy : Byte} :
    pixelToBufferIndex cx cy = none ↔ 128 ≤ cx.toNat ∨ 64 ≤ cy.toNat := by
  simp only [pixelToBufferIndex, ite_eq_left_iff, reduceCtorEq, imp_false, Decidable.not_not]

theorem pageToBufferIndex_eq_none_iff {page cy : Byte} :
    pageToBufferIndex page cy = none ↔ 8 ≤ page.toNat ∨ 64 ≤ cy.toNat := by
  simp only [pageToBufferIndex, ite_eq_left_iff, reduceCtorEq, imp_false, Decidable.not_not]

theorem textToWideTextAddSpace_eq_none_iff {cx cy : Byte} :
    textToWideTextAddSpace cx cy = none ↔ 16 ≤ cx.toNat ∨ 8 ≤ cy.toNat := by
  simp only [textToWideTextAddSpace, ite_eq_left_iff, reduceCtorEq, imp_false, Decidable.not_not]

theorem wideTextToWideText_eq_none_iff {cx cy : Byte} :
    wideTextToWideText cx cy = none ↔ 8 ≤ cx.toNat ∨ 8 ≤ cy.toNat := by
  simp only [wideTextToWideText, ite_eq_left_iff, reduceCtorEq, imp_false, Decidable.not_not]

/-- PNTPX fails where its own range check says, although it translates the page cx / 16 (44_paint R202). -/
theorem pageToBufferIndex_div_eq_none_iff {cx cy : Byte} :
    pageToBufferIndex (BitVec.ofNat 8 (cx.toNat / 16)) cy = none ↔ 128 ≤ cx.toNat ∨ 64 ≤ cy.toNat := by
  rw [pageToBufferIndex_eq_none_iff, BitVec.toNat_ofNat]
  omega

theorem completes_of_status_ne {i : Instr} {s : State} (hg : gated i = true) (hs : s.status ≠ .initialized) :
    completes i s = false := by
  simp [completes, hg, hs]

theorem completes_of_outOfRange {i : Instr} (s : State) (h : outOfRange i = true) : completes i s = false := by
  simp [completes, h]

/-! ### What a command writes -/

/-- What a command that succeeds leaves before its response, by kind of command: `u` against the state `s` it started
from. -/
inductive Writes (s : State) : Instr → State → Prop
  | setpin (slot id : Byte) (k : Fin 11) :
      Writes s (.setpin slot id) (setIMode .unknown (setStatus .uninitialized (setPin k id s)))
  | begin : Writes s .begin (setStatus .initialized (emit (beginEvents s) s))
  | gfxen (on : Bool) : Writes s (.gfxen on) (setGfxEn on s)
  /-- The commands that only answer. -/
  | nothing {i : Instr} (hm : selectsMode i = none) : Writes s i s
  /-- The commands that write the framebuffer and nothing else. -/
  | framebuffer {i : Instr} (hm : selectsMode i = none) (hw : writesFramebuffer i = true) (fb : Vector Page 512) :
      Writes s i { s with fb := fb }
  | prtc (c : Byte) (es : List Event) : Writes s (.prtc c) (emit es s)
  | prtw (w : Page) (es : List Event) : Writes s (.prtw w) (emit es s)
  /-- The commands that select an instruction mode and send bytes after it. -/
  | mode {i : Instr} (extended : Bool) (hm : selectsMode i = some (if extended then .extended else .basic))
      (bs : List BusByte) : Writes s i (sendBytes bs (selectInstructionMode extended s))

/-- The two ways a command ends: it does not complete and one response is all it adds, or it has written what its kind
writes. -/
def Ran (i : Instr) (s t : State) : Prop :=
  (completes i s = false ∧ ∃ c, t = respond (failWord c) s) ∨ ∃ v u, t = respond (okWord v) u ∧ Writes s i u

theorem Ran.failed {i : Instr} {s t : State} {c : Cause} (h : raiseFail c s = .next t) (hc : completes i s = false) :
    Ran i s t := by
  cases h
  exact .inl ⟨hc, c, rfl⟩

theorem Ran.done {i : Instr} {s t u : State} {v : Page} (h : respondOk v u = .next t) (hw : Writes s i u) :
    Ran i s t := by
  cases h
  exact .inr ⟨v, u, rfl, hw⟩

theorem Ran.gated {i : Instr} {s t : State} {body : Result} (hg : gated i = true)
    (h : requireInitialized s body = .next t) (hb : body = .next t → Ran i s t) : Ran i s t := by
  rcases requireInitialized_eq_next h with ⟨hs, rfl⟩ | ⟨-, h⟩
  · exact .failed rfl (completes_of_status_ne hg hs)
  · exact hb h

/-- A command behind the gate and a translation, which fails only where the command's coordinates are out of range. -/
theorem Ran.translated {α : Type} {i : Instr} {p : Option α} {s t : State} {body : α → Result}
    (hp : p = none → outOfRange i = true) (h : translated p s body = .next t)
    (hb : ∀ x, body x = .next t → Ran i s t) : Ran i s t := by
  rcases translated_eq_next h with ⟨hn, rfl⟩ | ⟨x, -, h⟩
  · exact .failed rfl (completes_of_outOfRange s (hp hn))
  · exact hb x h

/-- Every command, seen by its kind. -/
theorem exec_ran {i : Instr} {s t : State} (h : exec i s = .next t) : Ran i s t := by
  have pixel {cx cy : Byte} (hn : pixelToBufferIndex cx cy = none) :=
    decide_eq_true (pixelToBufferIndex_eq_none_iff.mp hn)
  have page {p cy : Byte} (hn : pageToBufferIndex p cy = none) :=
    decide_eq_true (pageToBufferIndex_eq_none_iff.mp hn)
  cases i with
  | setpin slot id =>
    simp only [exec, execSetpin] at h
    split at h
    · exact .done h (.setpin slot id _)
    · next hs => exact .failed h (by simp [completes, Instr.wellFormed, hs])
  | begin =>
    simp only [exec, execBegin] at h
    split at h
    · exact .done h .begin
    · next hv => exact .failed h (by simp [completes, hv])
  | gfxen on => exact .gated rfl h fun h => .done h (.gfxen on)
  | getst => exact .done h (.nothing rfl)
  | setpx cx cy lit =>
    refine .gated rfl h fun h => .translated pixel h fun x h => ?_
    split at h <;> exact .done h (.framebuffer rfl rfl _)
  | getpx cx cy => exact .gated rfl h fun h => .translated pixel h fun x h => .done h (.nothing rfl)
  | tglpx cx cy => exact .gated rfl h fun h => .translated pixel h fun x h => .done h (.framebuffer rfl rfl _)
  | setpg p cy value => exact .gated rfl h fun h => .translated page h fun x h => .done h (.framebuffer rfl rfl _)
  | getpg p cy => exact .gated rfl h fun h => .translated page h fun x h => .done h (.nothing rfl)
  | tglpg p cy xorMask => exact .gated rfl h fun h => .translated page h fun x h => .done h (.framebuffer rfl rfl _)
  | setall lit => exact .gated rfl h fun h => .done h (.framebuffer rfl rfl _)
  | tglall => exact .gated rfl h fun h => .done h (.framebuffer rfl rfl _)
  | pntpg p cy => exact .gated rfl h fun h => .translated page h fun x h => .done h (.mode true rfl _)
  | pntall => exact .gated rfl h fun h => .done h (.mode true rfl _)
  | pntpx cx cy =>
    exact .gated rfl h fun h => .translated (fun hn => decide_eq_true (pageToBufferIndex_div_eq_none_iff.mp hn)) h
      fun x h => .done h (.mode true rfl _)
  | settc cx cy =>
    exact .gated rfl h fun h => .translated (fun hn => decide_eq_true (textToWideTextAddSpace_eq_none_iff.mp hn)) h
      fun x h => .done h (.mode false rfl _)
  | setwtc cx cy =>
    exact .gated rfl h fun h => .translated (fun hn => decide_eq_true (wideTextToWideText_eq_none_iff.mp hn)) h
      fun x h => .done h (.mode false rfl _)
  | prtc c => exact .gated rfl h fun h => .done h (.prtc c _)
  | prtw w => exact .gated rfl h fun h => .done h (.prtw w _)
  | fillc c => exact .gated rfl h fun h => .done h (.mode false rfl _)
  | fillw w => exact .gated rfl h fun h => .done h (.mode false rfl _)

/-! ### The frame of each element -/

section
variable {i : Instr} {s u : State}

theorem Writes.status_cases (h : Writes s i u) :
    u.status = s.status ∨ (i = .begin ∧ u.status = .initialized) ∨
      ((∃ slot id, i = .setpin slot id) ∧ u.status = .uninitialized) := by
  cases h with
  | setpin slot id k => exact .inr (.inr ⟨⟨slot, id, rfl⟩, rfl⟩)
  | begin => exact .inr (.inl ⟨rfl, rfl⟩)
  | _ => exact .inl rfl

theorem Writes.pins_eq (h : Writes s i u) (hi : ∀ slot id, i ≠ .setpin slot id) : u.pins = s.pins := by
  cases h with
  | setpin slot id k => exact absurd rfl (hi slot id)
  | _ => rfl

theorem Writes.fb_eq (h : Writes s i u) (hi : writesFramebuffer i = false) : u.fb = s.fb := by
  cases h with
  | framebuffer _ hw fb => exact absurd hw (by simp [hi])
  | _ => rfl

theorem Writes.gfxEn_eq (h : Writes s i u) (hi : ∀ on, i ≠ .gfxen on) : u.gfxEn = s.gfxEn := by
  cases h with
  | gfxen on => exact absurd rfl (hi on)
  | _ => rfl

theorem Writes.imode_eq (h : Writes s i u) (hi : ∀ slot id, i ≠ .setpin slot id) (hm : selectsMode i = none) :
    u.imode = s.imode := by
  cases h with
  | setpin slot id k => exact absurd rfl (hi slot id)
  | mode extended hm' bs => exact absurd hm' (by simp [hm])
  | _ => rfl

/-- A mode-selecting command that succeeds leaves `imode` at its mode (10_state R29). -/
theorem Writes.imode_of_selectsMode (h : Writes s i u) {m : IMode} (hm : selectsMode i = some m) : u.imode = m := by
  cases h with
  | mode extended hm' bs => exact Option.some.inj (hm'.symm.trans hm)
  | nothing hm' => exact absurd hm (by simp [hm'])
  | framebuffer hm' => exact absurd hm (by simp [hm'])
  | _ => exact absurd hm nofun

theorem Writes.trace_eq (h : Writes s i u) (hm : selectsMode i = none) (hb : i ≠ .begin) (hc : ∀ c, i ≠ .prtc c)
    (hw : ∀ w, i ≠ .prtw w) : u.trace = s.trace := by
  cases h with
  | begin => exact absurd rfl hb
  | prtc c es => exact absurd rfl (hc c)
  | prtw w es => exact absurd rfl (hw w)
  | mode extended hm' bs => exact absurd hm' (by simp [hm])
  | _ => rfl

end

theorem samePins_of_pins_eq {s t : State} (h : t.pins = s.pins) : SamePins s t := fun k => by simp [pin, h]

theorem sameFramebuffer_of_fb_eq {s t : State} (h : t.fb = s.fb) : SameFramebuffer s t := fun i => by simp [fbRead, h]

end Sys2Proof.Machine

open Sys2Proof.Machine

/-- Settles O18: a failure leaves the status, and of the kinds of commands only SETPIN and BEGIN write it, neither of
them Error. -/
theorem statusTransitions : Obligations.StatusTransitions := by
  intro i s t h
  have hcases : t.status = s.status ∨ (i = .begin ∧ t.status = .initialized) ∨
      ((∃ slot id, i = .setpin slot id) ∧ t.status = .uninitialized) := by
    rcases exec_ran h with ⟨-, c, rfl⟩ | ⟨v, u, rfl, hw⟩
    · exact .inl rfl
    · exact hw.status_cases
  refine ⟨hcases, fun herr => ?_⟩
  rcases hcases with hs | ⟨-, hs⟩ | ⟨-, hs⟩
  · rw [← hs, herr]
  · exact absurd (herr.symm.trans hs) nofun
  · exact absurd (herr.symm.trans hs) nofun

/-- Settles O19: a failure adds a response alone, and `Writes` gives the frame of each element after a success. -/
theorem whoWritesWhat : Obligations.WhoWritesWhat := by
  intro i s t h
  refine ⟨(exec_ends h).cfg_eq, (exec_ends h).commands_eq, ?_⟩
  rcases exec_ran h with ⟨hc, c, rfl⟩ | ⟨v, u, rfl, hw⟩
  · exact ⟨fun _ _ => rfl, fun _ _ => rfl, fun _ => rfl, fun _ _ => rfl, fun m _ hd => absurd hd (by simp [hc]),
      fun _ _ _ _ => rfl⟩
  · exact ⟨fun hi => samePins_of_pins_eq (hw.pins_eq hi), fun hi => sameFramebuffer_of_fb_eq (hw.fb_eq hi), hw.gfxEn_eq,
      hw.imode_eq, fun m hm _ => hw.imode_of_selectsMode hm, hw.trace_eq⟩
end

section
/-! What no command reads (10_state R20, R21, R29): a relation between states that agree on all a command reads, and that
every operation on the state keeps, is kept by every command. Slot 10 and `imode` are two such relations. -/

namespace Sys2Proof.Machine

/-- Two states that agree on everything a command may read: `imode` and slot 10 are left out, and so are the outputs and
the port. -/
structure SameView (s s' : State) : Prop where
  cfg : s'.cfg = s.cfg
  status : s'.status = s.status
  gfxEn : s'.gfxEn = s.gfxEn
  fb : s'.fb = s.fb
  pins : ∀ k : Fin 11, k ≠ 10 → pin s' k = pin s k

/-- A relation between states that agree on what a command reads, kept by every operation on the state except `setPin`
(a relation about pins is kept by some of these only). -/
structure Unread (R : State → State → Prop) : Prop where
  view {s s' : State} : R s s' → SameView s s'
  respond {s s' : State} (r : ResponseWord) : R s s' → R (respond r s) (respond r s')
  setStatus {s s' : State} (v : Status) : R s s' → R (setStatus v s) (setStatus v s')
  setGfxEn {s s' : State} (v : Bool) : R s s' → R (setGfxEn v s) (setGfxEn v s')
  setIMode {s s' : State} (v : IMode) : R s s' → R (setIMode v s) (setIMode v s')
  emit {s s' : State} (es : List Event) : R s s' → R (emit es s) (emit es s')
  setFb {s s' : State} (fb : Vector Page 512) : R s s' → R { s with fb := fb } { s' with fb := fb }

/-- Two results that are next states in the relation. -/
def Both (R : State → State → Prop) (r r' : Result) : Prop :=
  ∃ t t', r = .next t ∧ r' = .next t' ∧ R t t'

/-! ### What is read -/

namespace SameView
variable {s s' : State} (h : SameView s s')
include h

theorem fbRead_eq : fbRead s' = fbRead s := by
  funext i
  simp only [fbRead, h.fb]

theorem requiredPin_eq (k : Fin 10) : pin s' (requiredSlot k) = pin s (requiredSlot k) :=
  h.pins _ (Fin.ne_of_val_ne (Nat.ne_of_lt k.isLt))

theorem requiredPinsValid_eq : requiredPinsValid s' = requiredPinsValid s := by
  simp only [requiredPinsValid, h.requiredPin_eq]

theorem beginEvents_eq : beginEvents s' = beginEvents s := by
  simp only [beginEvents, h.cfg, h.requiredPin_eq]

theorem busEvents_eq : busEvents s' = busEvents s := by
  have hD (k : Fin 8) : pin s' (slotD k) = pin s (slotD k) :=
    h.pins _ (Fin.ne_of_val_ne (Nat.ne_of_lt (k.isLt.trans (by decide))))
  funext b
  simp only [busEvents, h.cfg, hD, h.pins slotE (by decide), h.pins slotRS (by decide)]

theorem rowBytes_eq : rowBytes s' = rowBytes s := by
  funext r
  simp only [rowBytes, h.cfg, h.fbRead_eq]

end SameView

/-! ### What keeps the relation -/

namespace Unread
variable {R : State → State → Prop} (hR : Unread R) {s s' : State} (h : R s s')
include hR h

theorem fbWrite (i : EntryIndex) (v : Page) : R (fbWrite i v s) (fbWrite i v s') := by
  simpa only [Machine.fbWrite, (hR.view h).fb] using hR.setFb (s.fb.set i.toNat v) h

theorem fbComplement : R (fbComplement s) (fbComplement s') := by
  simpa only [Machine.fbComplement, (hR.view h).fb] using hR.setFb (s.fb.map fun v => ~~~v) h

theorem sendBytes (bs : List BusByte) : R (sendBytes bs s) (sendBytes bs s') := by
  simpa only [Machine.sendBytes, (hR.view h).busEvents_eq] using hR.emit (bs.flatMap (busEvents s)) h

theorem sendByte (b : BusByte) : R (sendByte b s) (sendByte b s') := by
  simpa only [Machine.sendByte, (hR.view h).busEvents_eq] using hR.emit (busEvents s b) h

theorem selectInstructionMode (e : Bool) : R (selectInstructionMode e s) (selectInstructionMode e s') := by
  simp only [Machine.selectInstructionMode, (hR.view h).cfg, (hR.view h).gfxEn]
  exact hR.setIMode _ (hR.sendByte h _)

/-- The bytes of a mode-selecting command, sent after its mode select. -/
theorem sendMode (e : Bool) (bs : List BusByte) :
    R (Machine.sendBytes bs (Machine.selectInstructionMode e s))
      (Machine.sendBytes bs (Machine.selectInstructionMode e s')) :=
  hR.sendBytes (hR.selectInstructionMode h e) bs

theorem respondOk (v : Page) : Both R (respondOk v s) (respondOk v s') :=
  ⟨_, _, rfl, rfl, hR.respond _ h⟩

theorem raiseFail (c : Cause) : Both R (raiseFail c s) (raiseFail c s') :=
  ⟨_, _, rfl, rfl, hR.respond _ h⟩

theorem requireInitialized {body body' : Result} (hb : Both R body body') :
    Both R (requireInitialized s body) (requireInitialized s' body') := by
  by_cases hs : s.status = .initialized
  · rwa [requireInitialized_of_initialized hs, requireInitialized_of_initialized ((hR.view h).status.trans hs)]
  · rw [requireInitialized_of_ne hs, requireInitialized_of_ne (by rwa [(hR.view h).status])]
    exact hR.raiseFail h _

theorem translated {α : Type} (p : Option α) {body body' : α → Result} (hb : ∀ x, Both R (body x) (body' x)) :
    Both R (translated p s body) (translated p s' body') := by
  cases p with
  | none => exact hR.raiseFail h _
  | some x => exact hb x

theorem paintPage (page cy : Byte) : Both R (paintPage page cy s) (paintPage page cy s') := by
  simp only [Machine.paintPage, (hR.view h).cfg, (hR.view h).fbRead_eq]
  exact hR.translated h _ fun x => hR.respondOk (hR.sendMode h _ _) _

/-- Every command keeps the relation; a SETPIN does if the relation is kept by its slot's `setPin`. -/
theorem exec {i : Instr}
    (hp : ∀ (k : Fin 11) (id : Byte), i = .setpin (BitVec.ofNat 8 k) id → R (setPin k id s) (setPin k id s')) :
    Both R (exec i s) (exec i s') := by
  have hv := hR.view h
  cases i with
  | setpin slot id =>
    simp only [Machine.exec, execSetpin]
    split
    · next hs =>
      exact hR.respondOk (hR.setIMode _ (hR.setStatus _ (hp ⟨slot.toNat, by omega⟩ id (by simp)))) _
    · exact hR.raiseFail h _
  | begin =>
    simp only [Machine.exec, execBegin, hv.requiredPinsValid_eq, hv.beginEvents_eq]
    split
    · exact hR.respondOk (hR.setStatus _ (hR.emit _ h)) _
    · exact hR.raiseFail h _
  | gfxen on => exact hR.requireInitialized h (hR.respondOk (hR.setGfxEn _ h) _)
  | getst =>
    simp only [Machine.exec, execGetst, hv.status]
    exact hR.respondOk h _
  | setpx cx cy lit =>
    simp only [Machine.exec, execSetpx, hv.fbRead_eq]
    refine hR.requireInitialized h (hR.translated h _ fun x => ?_)
    split <;> exact hR.respondOk (hR.fbWrite h _ _) _
  | getpx cx cy =>
    simp only [Machine.exec, execGetpx, hv.fbRead_eq]
    exact hR.requireInitialized h (hR.translated h _ fun x => hR.respondOk h _)
  | tglpx cx cy =>
    simp only [Machine.exec, execTglpx, hv.fbRead_eq]
    exact hR.requireInitialized h (hR.translated h _ fun x => hR.respondOk (hR.fbWrite h _ _) _)
  | setpg page cy value =>
    exact hR.requireInitialized h (hR.translated h _ fun x => hR.respondOk (hR.fbWrite h _ _) _)
  | getpg page cy =>
    simp only [Machine.exec, execGetpg, hv.fbRead_eq]
    exact hR.requireInitialized h (hR.translated h _ fun x => hR.respondOk h _)
  | tglpg page cy xorMask =>
    simp only [Machine.exec, execTglpg, hv.fbRead_eq]
    exact hR.requireInitialized h (hR.translated h _ fun x => hR.respondOk (hR.fbWrite h _ _) _)
  | setall lit => exact hR.requireInitialized h (hR.respondOk (hR.setFb _ h) _)
  | tglall => exact hR.requireInitialized h (hR.respondOk (hR.fbComplement h) _)
  | pntpg page cy => exact hR.requireInitialized h (hR.paintPage h _ _)
  | pntall =>
    simp only [Machine.exec, execPntall, hv.rowBytes_eq]
    exact hR.requireInitialized h (hR.respondOk (hR.sendMode h _ _) _)
  | pntpx cx cy => exact hR.requireInitialized h (hR.paintPage h _ _)
  | settc cx cy =>
    simp only [Machine.exec, execSettc, hv.cfg]
    exact hR.requireInitialized h (hR.translated h _ fun x => hR.respondOk (hR.sendMode h _ _) _)
  | setwtc cx cy =>
    simp only [Machine.exec, execSetwtc, hv.cfg]
    exact hR.requireInitialized h (hR.translated h _ fun x => hR.respondOk (hR.sendMode h _ _) _)
  | prtc c => exact hR.requireInitialized h (hR.respondOk (hR.sendByte h _) _)
  | prtw w => exact hR.requireInitialized h (hR.respondOk (hR.sendBytes h _) _)
  | fillc c =>
    simp only [Machine.exec, execFillc, hv.cfg]
    exact hR.requireInitialized h (hR.respondOk (hR.sendMode h _ _) _)
  | fillw w =>
    simp only [Machine.exec, execFillw, hv.cfg]
    exact hR.requireInitialized h (hR.respondOk (hR.sendMode h _ _) _)

end Unread

/-! ### The two relations -/

/-- The second state is the first with slot 10 replaced by `id`. -/
def SlotTenReplaced (id : Byte) (s s' : State) : Prop := s' = setPin 10 id s

/-- The second state is the first with some `imode`. -/
def ModeReplaced (s s' : State) : Prop := ∃ m, s' = setIMode m s

theorem unread_slotTenReplaced (id : Byte) : Unread (SlotTenReplaced id) where
  view h := by
    subst h
    exact ⟨rfl, rfl, rfl, rfl, fun k hk => by rw [pin_setPin, if_neg hk]⟩
  respond r h := congrArg (respond r) h
  setStatus v h := congrArg (setStatus v) h
  setGfxEn v h := congrArg (setGfxEn v) h
  setIMode v h := congrArg (setIMode v) h
  emit es h := congrArg (emit es) h
  setFb fb h := by subst h; rfl

/-- Every operation keeps the other `imode`, but for `setIMode`, after which the two states are the same. -/
theorem unread_modeReplaced : Unread ModeReplaced where
  view := by
    rintro s _ ⟨m, rfl⟩
    exact ⟨rfl, rfl, rfl, rfl, fun _ _ => rfl⟩
  respond r := fun ⟨m, h⟩ => ⟨m, congrArg (respond r) h⟩
  setStatus v := fun ⟨m, h⟩ => ⟨m, congrArg (setStatus v) h⟩
  setGfxEn v := fun ⟨m, h⟩ => ⟨m, congrArg (setGfxEn v) h⟩
  setIMode v := fun ⟨_, h⟩ => ⟨v, h ▸ rfl⟩
  emit es := fun ⟨m, h⟩ => ⟨m, congrArg (emit es) h⟩
  setFb fb := fun ⟨m, h⟩ => ⟨m, congrArg (fun u : State => { u with fb := fb }) h⟩

/-- Writes to two different slots commute. -/
theorem setPin_comm {j k : Fin 11} (hjk : j ≠ k) (a b : Byte) (s : State) :
    setPin j a (setPin k b s) = setPin k b (setPin j a s) := by
  simp only [setPin, Vector.set_comm _ _ (Fin.val_ne_of_ne hjk)]

end Sys2Proof.Machine

open Sys2Proof Sys2Proof.Machine

/-- Settles O20: `SlotTenReplaced` is kept by every command, a SETPIN of another slot included, which commutes with
replacing slot 10. -/
theorem slotTenIsNeverRead : Obligations.SlotTenIsNeverRead := by
  intro i s id hi
  have hp (k : Fin 11) (id' : Byte) (hk : i = .setpin (BitVec.ofNat 8 k) id') :
      SlotTenReplaced id (setPin k id' s) (setPin k id' (setPin 10 id s)) :=
    setPin_comm (fun h10 => hi id' (by rw [hk, h10]; rfl)) id' id s
  obtain ⟨t, _, ht, ht', rfl⟩ := (unread_slotTenReplaced id).exec rfl hp
  exact ⟨t, ht, ht'⟩

/-- Settles O21: `ModeReplaced` is kept by every command. -/
theorem modeShadowIsNeverRead : Obligations.ModeShadowIsNeverRead := by
  intro i s m
  obtain ⟨t, _, ht, ht', m', rfl⟩ := unread_modeReplaced.exec (i := i) ⟨m, rfl⟩ fun _ _ _ => ⟨m, rfl⟩
  exact ⟨t, m', ht, ht'⟩
end

section
/-! The levels of the lines after a bus byte (10_state R32, 43_bus R180). -/

namespace Sys2Proof.Machine

theorem lineLevel_append_writePin (p q : Byte) (l : Bool) (tr : List Event) :
    lineLevel p (tr ++ [.writePin q l]) = if q = p then some l else lineLevel p tr := by
  simp [lineLevel, List.foldl_append]

theorem lineLevel_append_setPinMode (p q : Byte) (d : Direction) (tr : List Event) :
    lineLevel p (tr ++ [.setPinMode q d]) = lineLevel p tr := by
  simp [lineLevel, List.foldl_append]

theorem lineLevel_append_sleepMicros (p : Byte) (d : Delay) (tr : List Event) :
    lineLevel p (tr ++ [.sleepMicros d]) = lineLevel p tr := by
  simp [lineLevel, List.foldl_append]

/-- Where events write a line, and at one level only, the line has that level after them. -/
theorem lineLevel_append_of_writes {p : Byte} {l : Bool} {es : List Event} (tr : List Event)
    (hone : ∀ l', .writePin p l' ∈ es → l' = l) (hmem : .writePin p l ∈ es) : lineLevel p (tr ++ es) = some l := by
  induction es using List.reverseRecOn with
  | nil => exact absurd hmem List.not_mem_nil
  | append_singleton es e ih =>
    have hprev (hne : .writePin p l ≠ e) : lineLevel p (tr ++ es) = some l :=
      ih (fun l' hl' => hone l' (List.mem_append_left _ hl'))
        ((List.mem_append.mp hmem).resolve_right fun h => hne (List.mem_singleton.mp h))
    rw [← List.append_assoc]
    cases e with
    | writePin q l' =>
      rw [lineLevel_append_writePin]
      split
      · next hq => rw [hone l' (by simp [hq])]
      · next hq => exact hprev fun h => hq (Event.writePin.inj h).1.symm
    | setPinMode q d => rw [lineLevel_append_setPinMode, hprev nofun]
    | sleepMicros d => rw [lineLevel_append_sleepMicros, hprev nofun]

/-- The writes among the events of a bus byte: the enable line at both levels, register-select, the data lines. -/
theorem writePin_mem_busEvents {s : State} {b : BusByte} {p : Byte} {l : Bool} :
    .writePin p l ∈ busEvents s b ↔ p = pin s slotE ∨ (p = pin s slotRS ∧ l = b.isData) ∨
      ∃ k ∈ s.cfg.dataLineOrder, p = pin s (slotD k) ∧ l = b.byte.getLsbD k := by
  simp only [busEvents, List.mem_append, List.mem_cons, List.mem_map, List.not_mem_nil, Event.writePin.injEq,
    reduceCtorEq, or_false, false_or, @eq_comm Byte _ p, @eq_comm Bool _ l]
  grind

theorem mem_dataLineOrder {c : Config} (h : c.wf = true) (k : Fin 8) : k ∈ c.dataLineOrder := by
  have hperm : c.dataLineOrder.Perm Config.listedDataLineOrder := by
    simp only [Config.wf, Bool.and_eq_true, List.isPerm_iff] at h
    obtain ⟨⟨-, hdata⟩, -⟩ := h
    exact hdata
  exact hperm.mem_iff.mpr (by revert k; decide)

/-- The last write of a bus byte lowers the enable line. -/
theorem lineLevel_slotE_sendByte (b : BusByte) (s : State) :
    lineLevel (pin s slotE) (sendByte b s).trace = some false := by
  have hsplit : ∃ front, busEvents s b = front ++ [.writePin (pin s slotE) false, .sleepMicros b.postDelay] :=
    ⟨_, (List.append_assoc _ [_, _] [_, _]).symm⟩
  obtain ⟨front, hfront⟩ := hsplit
  rw [sendByte_trace, hfront, ← List.append_assoc]
  exact lineLevel_append_of_writes _ (by simp) (by simp)

theorem slotD_injective : Function.Injective slotD := fun _ _ h => Fin.ext (Fin.mk.inj h)

section
variable {s : State} (hinj : ∀ j k : Fin 11, j.val < 10 → k.val < 10 → pin s j = pin s k → j = k)
include hinj

theorem lineLevel_slotRS_sendByte (b : BusByte) : lineLevel (pin s slotRS) (sendByte b s).trace = some b.isData := by
  refine lineLevel_append_of_writes _ (fun l hl => ?_) (writePin_mem_busEvents.mpr (.inr (.inl ⟨rfl, rfl⟩)))
  rcases writePin_mem_busEvents.mp hl with hE | ⟨-, hl⟩ | ⟨k, -, hk, -⟩
  · exact absurd (hinj _ _ (by decide) (by decide) hE) (by decide)
  · exact hl
  · exact absurd (hinj _ _ (by decide) (k.isLt.trans (by decide)) hk) (Fin.ne_of_val_ne (Nat.ne_of_gt k.isLt))

theorem lineLevel_slotD_sendByte (hwf : s.cfg.wf = true) (b : BusByte) (k : Fin 8) :
    lineLevel (pin s (slotD k)) (sendByte b s).trace = some (b.byte.getLsbD k) := by
  have hk10 (k : Fin 8) : (slotD k).val < 10 := k.isLt.trans (by decide)
  refine lineLevel_append_of_writes _ (fun l hl => ?_)
    (writePin_mem_busEvents.mpr (.inr (.inr ⟨k, mem_dataLineOrder hwf k, rfl, rfl⟩)))
  rcases writePin_mem_busEvents.mp hl with hE | ⟨hRS, -⟩ | ⟨j, -, hj, hl⟩
  · exact absurd (hinj _ _ (hk10 k) (by decide) hE) (Fin.ne_of_val_ne (Nat.ne_of_lt (k.isLt.trans (by decide))))
  · exact absurd (hinj _ _ (hk10 k) (by decide) hRS) (Fin.ne_of_val_ne (Nat.ne_of_lt k.isLt))
  · rw [hl, slotD_injective (hinj _ _ (hk10 k) (hk10 j) hj)]

end

end Sys2Proof.Machine

open Sys2Proof.Machine

/-- Settles O42: distinct lines are written at one level each, but for the enable line, whose last write is low. -/
theorem linesAfterBusByte : Obligations.LinesAfterBusByte :=
  fun b s hwf hinj =>
    ⟨lineLevel_slotD_sendByte hinj hwf b, lineLevel_slotRS_sendByte hinj b, lineLevel_slotE_sendByte b s⟩
end

section
/-! The command encoding (30_encoding R80 to R87): decoding inverts encoding on the well-formed commands, encoding
inverts decoding on the legal words, and the legal words are those of R85. -/

namespace Sys2Proof

/-! ### The word of a command -/

/-- The word of every command spells the command's own row. -/
theorem encode_spellsRow (i : Instr) : Laws.SpellsRow.Statement i := by
  cases i with
  | setpin slot id => exact Laws.SpellsRow.setpin slot id
  | begin => exact Laws.SpellsRow.begin
  | gfxen on => exact Laws.SpellsRow.gfxen on
  | getst => exact Laws.SpellsRow.getst
  | setpx cx cy lit => exact Laws.SpellsRow.setpx cx cy lit
  | getpx cx cy => exact Laws.SpellsRow.getpx cx cy
  | tglpx cx cy => exact Laws.SpellsRow.tglpx cx cy
  | setpg page cy value => exact Laws.SpellsRow.setpg page cy value
  | getpg page cy => exact Laws.SpellsRow.getpg page cy
  | tglpg page cy xorMask => exact Laws.SpellsRow.tglpg page cy xorMask
  | setall lit => exact Laws.SpellsRow.setall lit
  | tglall => exact Laws.SpellsRow.tglall
  | pntpg page cy => exact Laws.SpellsRow.pntpg page cy
  | pntall => exact Laws.SpellsRow.pntall
  | pntpx cx cy => exact Laws.SpellsRow.pntpx cx cy
  | settc cx cy => exact Laws.SpellsRow.settc cx cy
  | setwtc cx cy => exact Laws.SpellsRow.setwtc cx cy
  | prtc c => exact Laws.SpellsRow.prtc c
  | prtw w => exact Laws.SpellsRow.prtw w
  | fillc c => exact Laws.SpellsRow.fillc c
  | fillw w => exact Laws.SpellsRow.fillw w

/-- A flag is read back from V[0]. -/
@[simp] theorem getElem_flagField (f : Bool) : (flagField f)[0] = f := by cases f <;> rfl

/-- An 8-bit code is read back from V[7:0]. -/
theorem setWidth_setWidth_code (c : Byte) : (c.setWidth 16).setWidth 8 = c := by
  rw [BitVec.setWidth_setWidth_of_le c (by decide), BitVec.setWidth_eq]

/-- The operands that a well-formed command puts into its fields are the ones its format takes out of them. -/
theorem assemble_encode {i : Instr} (h : i.wellFormed = true) :
    assemble i.mnemonic (fieldA (encode i)) (fieldB (encode i)) (fieldV (encode i)) = .ok i := by
  cases i
  case setpin slot id => simpa [assemble, Instr.mnemonic, encode] using of_decide_eq_true h
  case prtc c | fillc c => simp only [assemble, Instr.mnemonic, encode, fieldV_packWord, setWidth_setWidth_code]
  all_goals simp [assemble, Instr.mnemonic, encode]

/-! ### The words that decode -/

/-- A word decodes to what the row it matches makes of its fields. -/
theorem decode_eq_ok_iff {w : CommandWord} {i : Instr} : decode w = .ok i ↔
    ∃ r ∈ opcodeTable, w &&& r.mask = r.matchBits ∧ assemble r.mnemonic (fieldA w) (fieldB w) (fieldV w) = .ok i := by
  constructor
  · intro h
    unfold decode at h
    split at h
    · cases h
    · next r hr =>
      split at h
      · next hm => exact ⟨r, (findRow_mem hr).1, hm, h⟩
      · cases h
  · rintro ⟨r, hr, hm, h⟩
    rw [decode_of_match hr hm, h]

theorem assemble_setpin_eq_ok_iff {a b : Byte} {v : Page} {i : Instr} :
    assemble .SETPIN a b v = .ok i ↔ a.toNat ≤ 10 ∧ .setpin a b = i := by
  by_cases h : a.toNat ≤ 10 <;> simp [assemble, h]

/-- Only the slot of a SETPIN is checked when the operands are taken out (30_encoding R86). -/
theorem assemble_isOk_iff {m : Mnemonic} {a b : Byte} {v : Page} :
    (∃ i, assemble m a b v = .ok i) ↔ (m = .SETPIN → a.toNat ≤ 10) := by
  cases m
  case SETPIN => simp [assemble_setpin_eq_ok_iff]
  all_goals simp [assemble]

theorem wellFormed_of_assemble {m : Mnemonic} {a b : Byte} {v : Page} {i : Instr} (h : assemble m a b v = .ok i) :
    i.wellFormed = true := by
  cases m
  case SETPIN =>
    obtain ⟨ha, rfl⟩ := assemble_setpin_eq_ok_iff.mp h
    exact decide_eq_true ha
  all_goals cases h; rfl

theorem opcodeTable_setpin_iff : ∀ r ∈ opcodeTable, r.mnemonic = .SETPIN ↔ r.op = 0x01 := by
  decide

/-- The legal words (30_encoding R85): some row matches, and the slot of a SETPIN is at most 10. -/
theorem decode_isOk_iff {w : CommandWord} : (∃ i, decode w = .ok i) ↔
    (∃ r ∈ opcodeTable, w &&& r.mask = r.matchBits) ∧ (fieldOP w = 0x01 → (fieldA w).toNat ≤ 10) := by
  have slot {r : OpcodeRow} (hr : r ∈ opcodeTable) (hm : w &&& r.mask = r.matchBits) :
      r.mnemonic = .SETPIN ↔ fieldOP w = 0x01 := by
    rw [opcodeTable_setpin_iff r hr, ((match_iff hr).mp hm).1]
  constructor
  · rintro ⟨i, hi⟩
    obtain ⟨r, hr, hm, h⟩ := decode_eq_ok_iff.mp hi
    exact ⟨⟨r, hr, hm⟩, fun ho => assemble_isOk_iff.mp ⟨i, h⟩ ((slot hr hm).mpr ho)⟩
  · rintro ⟨⟨r, hr, hm⟩, ha⟩
    obtain ⟨i, h⟩ := assemble_isOk_iff.mpr fun hs => ha ((slot hr hm).mp hs)
    exact ⟨i, decode_eq_ok_iff.mpr ⟨r, hr, hm, h⟩⟩

/-! ### The word of the command a word decodes to

What a format requires to be zero under the row's mask is what the encoder fills with zeros (30_encoding R81). -/

theorem byte_eq_zero_of_and {a : Byte} (h : a &&& 0xFF = 0) : a = 0 := by
  rwa [show (0xFF : Byte) = BitVec.allOnes 8 by decide, BitVec.and_allOnes] at h

theorem page_eq_zero_of_and {v : Page} (h : v &&& 0xFFFF = 0) : v = 0 := by
  rwa [show (0xFFFF : Page) = BitVec.allOnes 16 by decide, BitVec.and_allOnes] at h

theorem getLsbD_eq_false_of_and {v m : Page} (h : v &&& m = 0) {k : Nat} (hk : m.getLsbD k = true) :
    v.getLsbD k = false := by
  simpa [hk] using congrArg (·.getLsbD k) h

/-- A V that vanishes above bit 0 is the flag it holds. -/
theorem flagField_getLsbD {v : Page} (h : v &&& 0xFFFE = 0) : flagField (v.getLsbD 0) = v := by
  apply BitVec.eq_of_getLsbD_eq
  intro k hk
  have high : ∀ k < 16, k ≠ 0 → (0xFFFE : Page).getLsbD k = true := by decide
  have flag (f : Bool) : (flagField f).getLsbD k = (decide (k = 0) && f) := by cases f <;> simp [flagField, hk]
  rw [flag]
  by_cases h0 : k = 0
  · simp [h0]
  · simp [h0, getLsbD_eq_false_of_and h (high k hk h0)]

/-- A V that vanishes above bit 7 is the code it holds. -/
theorem setWidth_setWidth_page {v : Page} (h : v &&& 0xFF00 = 0) : (v.setWidth 8).setWidth 16 = v := by
  apply BitVec.eq_of_getLsbD_eq
  intro k hk
  have high : ∀ k < 16, 8 ≤ k → (0xFF00 : Page).getLsbD k = true := by decide
  simp only [BitVec.getLsbD_setWidth, hk, decide_true, Bool.true_and]
  by_cases h8 : k < 8
  · simp [h8]
  · simp [h8, getLsbD_eq_false_of_and h (high k hk (by omega))]

/-- The encoder gives back the fields that a row's format made a command of. -/
theorem encode_of_assemble {r : OpcodeRow} (hr : r ∈ opcodeTable) {a b : Byte} {v : Page} {i : Instr}
    (ha : a &&& fieldA r.mask = 0) (hb : b &&& fieldB r.mask = 0) (hv : v &&& fieldV r.mask = 0)
    (h : assemble r.mnemonic a b v = .ok i) : encode i = packWord r.op a b v := by
  have hA (hm : fieldA r.mask = 0xFF) : a = 0 := byte_eq_zero_of_and (hm ▸ ha)
  have hB (hm : fieldB r.mask = 0xFF) : b = 0 := byte_eq_zero_of_and (hm ▸ hb)
  have hV (hm : fieldV r.mask = 0xFFFF) : v = 0 := page_eq_zero_of_and (hm ▸ hv)
  have hFlag (hm : fieldV r.mask = 0xFFFE) : flagField (v.getLsbD 0) = v := flagField_getLsbD (hm ▸ hv)
  have hCode (hm : fieldV r.mask = 0xFF00) : (v.setWidth 8).setWidth 16 = v := setWidth_setWidth_page (hm ▸ hv)
  simp only [opcodeTable, opcodeTableLow, opcodeTableHigh, List.cons_append, List.nil_append, List.mem_cons,
    List.not_mem_nil, or_false] at hr
  rcases hr with rfl | rfl | rfl | rfl | rfl | rfl | rfl | rfl | rfl | rfl | rfl | rfl | rfl | rfl | rfl | rfl | rfl |
    rfl | rfl | rfl | rfl
  case inl =>
    obtain ⟨-, rfl⟩ := assemble_setpin_eq_ok_iff.mp h
    rw [encode, hV (by decide)]
  all_goals
    cases h
    simp (disch := decide) only [encode, hA, hB, hV, hFlag, hCode]

end Sys2Proof

open Sys2Proof Sys2Proof.Machine

/-- Settles O1: the word spells the command's row, and `assemble` takes out of its fields what `encode` put in. -/
theorem decodeOfEncode : Obligations.DecodeOfEncode := by
  intro i hi
  obtain ⟨r, hr, hm, hmatch⟩ := encode_spellsRow i
  rw [decode_of_match hr hmatch, hm, assemble_encode hi]

/-- Settles O2: the row a word matches fixes every field the command does not hold. -/
theorem encodeOfDecode : Obligations.EncodeOfDecode := by
  intro w i h
  obtain ⟨r, hr, hm, hi⟩ := decode_eq_ok_iff.mp h
  obtain ⟨ho, ha, hb, hv⟩ := (match_iff hr).mp hm
  refine ⟨?_, wellFormed_of_assemble hi⟩
  rw [encode_of_assemble hr ha hb hv hi, ← ho, packWord_fields]

/-- Settles O3: every mask covers OP, and no two rows have the same OP. -/
theorem opcodeRowsExclusive : Obligations.OpcodeRowsExclusive := by
  intro w r r' hr hr' hm hm'
  have ho : fieldOP w = r.op := ((match_iff hr).mp hm).1
  have ho' : fieldOP w = r'.op := ((match_iff hr').mp hm').1
  exact opcodeTable_op_inj r hr r' hr' (ho.symm.trans ho')

/-- Settles O4: by `decode_isOk_iff`, the words that decode are the others. -/
theorem illegalWordHasNoEffect : Obligations.IllegalWordHasNoEffect := by
  intro w s
  have legal : ¬ ((∀ r ∈ opcodeTable, w &&& r.mask ≠ r.matchBits) ∨ (fieldOP w = 0x01#8 ∧ 10 < (fieldA w).toNat)) ↔
      ∃ i, decode w = .ok i := by
    rw [decode_isOk_iff]
    push Not
    rfl
  refine ⟨fun hill => ?_, fun hleg => ?_⟩
  · cases h : decode w with
    | error e => exact performWord_of_error s h
    | ok i => exact absurd hill (legal.mpr ⟨i, h⟩)
  · obtain ⟨i, hi⟩ := legal.mp hleg
    exact ⟨i, hi, performWord_of_ok s hi⟩

/-- Settles O5, by evaluating the decoder. -/
theorem writtenWordsDecode : Obligations.WrittenWordsDecode := by
  unfold Obligations.WrittenWordsDecode
  decide
end

section
/-! The responses a command can end with (30_encoding R82, 60_exceptions R251). -/

namespace Sys2Proof.Machine

theorem lawfulResponse_okWord (v : Page) : LawfulResponse (okWord v) :=
  .inl ⟨fieldFAIL_okWord v, fieldCAUSE_okWord v⟩

theorem lawfulResponse_failWord (c : Cause) : LawfulResponse (failWord c) := by cases c <;> decide

/-- Both endings of a command add a lawful response. -/
theorem Ends.lawfulResponse {s t : State} (h : Ends s t) :
    ∃ r, t.responses = s.responses ++ [r] ∧ LawfulResponse r := by
  rcases h with ⟨c, rfl⟩ | ⟨v, u, rfl, hd⟩
  · exact ⟨failWord c, rfl, lawfulResponse_failWord c⟩
  · exact ⟨okWord v, by rw [respond_responses, hd.responses], lawfulResponse_okWord v⟩

end Sys2Proof.Machine

open Sys2Proof.Machine

/-- Settles O14: a step's command ends, and taking the word from the port leaves the responses alone. -/
theorem responsesAreLawful : Obligations.ResponsesAreLawful := by
  intro s t h
  obtain ⟨w, rest, -, -, hends⟩ := step_eq_next h
  exact hends.lawfulResponse
end

section
/-! The configuration commands (40_config R110 to R113): what SETPIN, BEGIN, GFXEN and GETST write and answer, and what
they leave as it was. -/

namespace Sys2Proof.Machine

/-! ### The check and the order of BEGIN -/

/-- The valid identifiers are those up to 0x7F (10_state R22). -/
theorem pinValid_iff_toNat_le (id : Byte) : pinValid id = true ↔ id.toNat ≤ 0x7F := by
  have hmsb : id.getLsbD 7 = decide (2 ^ 7 ≤ id.toNat) := BitVec.msb_eq_decide id
  simp only [pinValid, hmsb, Bool.not_eq_true', decide_eq_false_iff_not]
  omega

/-- What BEGIN checks, said of the slots below 10 (40_config R111). -/
theorem requiredPinsValid_iff_toNat_le (s : State) :
    requiredPinsValid s = true ↔ ∀ k : Fin 11, k.val < 10 → (pin s k).toNat ≤ 0x7F := by
  simp only [requiredPinsValid_iff, pinValid_iff_toNat_le]
  exact ⟨fun h k hk => h ⟨k.val, hk⟩, fun h k => h (requiredSlot k) k.isLt⟩

/-- Lawful parameters give each of the ten slots one place in PINMODE_ORDER (00_scope R10). -/
theorem pinmodeOrder_perm {c : Config} (h : c.wf = true) : c.pinmodeOrder.Perm (List.finRange 10) := by
  simp only [Config.wf, Bool.and_eq_true, List.isPerm_iff] at h
  obtain ⟨-, hperm⟩ := h
  rwa [show Config.listedPinmodeOrder = List.finRange 10 from rfl] at hperm

/-- With lawful parameters BEGIN sets each of the ten directions once. -/
theorem beginEvents_perm {s : State} (h : s.cfg.wf = true) :
    (beginEvents s).Perm ((List.finRange 10).map fun k => .setPinMode (pin s (requiredSlot k)) .output) :=
  (pinmodeOrder_perm h).map _

theorem length_beginEvents {s : State} (h : s.cfg.wf = true) : (beginEvents s).length = 10 := by
  rw [(beginEvents_perm h).length_eq, List.length_map, List.length_finRange]

/-! ### What each command does -/

section
variable {s : State}

theorem exec_setpin_of_le {slot : Byte} (id : Byte) (h : slot.toNat ≤ 10) :
    exec (.setpin slot id) s = .next (respond (okWord 0)
      (setIMode .unknown (setStatus .uninitialized (setPin ⟨slot.toNat, Nat.lt_succ_of_le h⟩ id s)))) := dif_pos h

theorem exec_setpin_of_lt {slot : Byte} (id : Byte) (h : 10 < slot.toNat) :
    exec (.setpin slot id) s = raiseFail .illegalCommand s := dif_neg (Nat.not_le_of_lt h)

theorem exec_begin_of_valid (h : requiredPinsValid s = true) :
    exec .begin s = .next (respond (okWord 0) (setStatus .initialized (emit (beginEvents s) s))) := if_pos h

theorem exec_begin_of_not_valid (h : ¬ requiredPinsValid s = true) :
    exec .begin s = raiseFail .invalidPinConfig s := if_neg h

theorem exec_gfxen_of_initialized (on : Bool) (h : s.status = .initialized) :
    exec (.gfxen on) s = .next (respond (okWord 0) (setGfxEn on s)) := requireInitialized_of_initialized h

theorem exec_gfxen_of_ne (on : Bool) (h : s.status ≠ .initialized) :
    exec (.gfxen on) s = raiseFail .notInitialized s := requireInitialized_of_ne h

theorem exec_getst_of_status {v : Status} (h : s.status = v) :
    exec .getst s = onlyResponse s (okWord (v.code.setWidth 16)) := by
  subst h
  rfl

end

end Sys2Proof.Machine

open Sys2Proof Sys2Proof.Machine

/-- Settles O23: `requiredPinsValid` decides between the two cases, `beginEvents` are the events of the first, and an
identifier from 0x80 up is the second. -/
theorem beginValidatesAndSetsDirections : Obligations.BeginValidatesAndSetsDirections := by
  refine fun s => ⟨fun hvalid => ?_, fun ⟨k, hk, hunset⟩ => ?_⟩
  · exact ⟨_, beginEvents s, exec_begin_of_valid ((requiredPinsValid_iff_toNat_le s).mpr hvalid), rfl, rfl, rfl, rfl,
      fun hwf => ⟨length_beginEvents hwf, beginEvents_perm hwf⟩, fun _ => rfl, rfl, rfl, fun _ => rfl, rfl, rfl⟩
  · refine exec_begin_of_not_valid fun hvalid => ?_
    have hle : (pin s k).toNat ≤ 0x7F := (requiredPinsValid_iff_toNat_le s).mp hvalid k hk
    omega

/-- Settles O22: of the four writes of a SETPIN that succeeds, only `setPin` touches the slots, and by `pin_setPin` only
its own. -/
theorem setpinWritesOneSlot : Obligations.SetpinWritesOneSlot := by
  refine fun slot id s => ⟨fun h => ?_, fun h => exec_setpin_of_lt id h⟩
  refine ⟨_, exec_setpin_of_le id h, fun k => ?_, rfl, rfl, rfl, rfl, fun _ => rfl, rfl, rfl, rfl⟩
  simp only [pin_respond, pin_setIMode, pin_setStatus, pin_setPin, Fin.ext_iff]

/-- Settles O24: behind the gate stands `setGfxEn` and the response alone. -/
theorem gfxenWritesFlag : Obligations.GfxenWritesFlag := by
  refine fun on s => ⟨fun h => ?_, fun h => exec_gfxen_of_ne on h⟩
  exact ⟨_, exec_gfxen_of_initialized on h, rfl, rfl, fun _ => rfl, rfl, rfl, fun _ => rfl, rfl, rfl, rfl⟩

/-- Settles O25: the codes of the three statuses are 0, 1 and 2 (10_state R24). -/
theorem getstReturnsStatus : Obligations.GetstReturnsStatus :=
  fun _ => ⟨exec_getst_of_status, exec_getst_of_status, exec_getst_of_status⟩
end

section
/-! The Coordinate Translator (41_translator R130 to R134): the two folds with their values for both halves in one
equation each, and what a translation that answers says of its operands. -/

namespace Sys2Proof.Machine

/-! ### The half-screen fold -/

theorem ControllerPlace.eq_of_toNat_eq {p q : ControllerPlace} (hpage : p.cpage.toNat = q.cpage.toNat)
    (hrow : p.crow.toNat = q.crow.toNat) : p = q := by
  cases p
  cases q
  exact congrArg₂ mk (BitVec.eq_of_toNat_eq hpage) (BitVec.eq_of_toNat_eq hrow)

theorem fold_toNat {page cy : Nat} (hp : page < 8) (hy : cy < 64) :
    (fold page cy).cpage.toNat = (if 32 ≤ cy then page + 8 else page) ∧
    (fold page cy).crow.toNat = (if 32 ≤ cy then cy - 32 else cy) := by
  by_cases h : 32 ≤ cy
  · simpa only [if_pos h] using fold_toNat_of_ge hp h hy
  · simpa only [if_neg h] using fold_toNat_of_lt hp (Nat.lt_of_not_le h)

/-- The controller page is below 8 exactly for the upper half, so the place gives the page and the row back. -/
theorem fold_leftInverse {page cy : Nat} (hp : page < 8) (hy : cy < 64) :
    (fold page cy).cpage.toNat % 8 = page ∧
    32 * ((fold page cy).cpage.toNat / 8) + (fold page cy).crow.toNat = cy := by
  by_cases h : 32 ≤ cy
  · obtain ⟨hpage, hrow⟩ := fold_toNat_of_ge hp h hy
    omega
  · obtain ⟨hpage, hrow⟩ := fold_toNat_of_lt hp (Nat.lt_of_not_le h)
    omega

theorem fold_injective {page cy page' cy' : Nat} (hp : page < 8) (hy : cy < 64) (hp' : page' < 8) (hy' : cy' < 64)
    (h : fold page cy = fold page' cy') : page = page' ∧ cy = cy' := by
  obtain ⟨hpage, hrow⟩ := fold_leftInverse hp hy
  rw [h] at hpage hrow
  obtain ⟨hpage', hrow'⟩ := fold_leftInverse hp' hy'
  exact ⟨hpage.symm.trans hpage', hrow.symm.trans hrow'⟩

/-- A place with a controller page below 8 comes from the upper half, one from 8 on from the lower. -/
theorem fold_surjective (p : ControllerPlace) : ∃ page cy : Nat, page < 8 ∧ cy < 64 ∧ fold page cy = p := by
  have hpage : p.cpage.toNat < 16 := p.cpage.isLt
  have hrow : p.crow.toNat < 32 := p.crow.isLt
  by_cases h : p.cpage.toNat < 8
  · obtain ⟨hfpage, hfrow⟩ := fold_toNat_of_lt h hrow
    exact ⟨_, _, h, Nat.lt_trans hrow (by decide), ControllerPlace.eq_of_toNat_eq hfpage hfrow⟩
  · obtain ⟨hfpage, hfrow⟩ := fold_toNat_of_ge (page := p.cpage.toNat - 8) (cy := p.crow.toNat + 32)
      (by omega) (by omega) (by omega)
    exact ⟨p.cpage.toNat - 8, p.crow.toNat + 32, by omega, by omega,
      ControllerPlace.eq_of_toNat_eq (by omega) (by omega)⟩

/-! ### The page and pixel translations -/

theorem byte_toNat_of_lt {n : Nat} (h : n < 256) : (BitVec.ofNat 8 n).toNat = n :=
  (BitVec.toNat_ofNat n 8).trans (Nat.mod_eq_of_lt h)

/-- A page translation that answers had its operands in the page space, and names their entry. -/
theorem bufferIndex_of_pageToBufferIndex_eq_some {page cy : Byte} {p : PagePlace}
    (h : pageToBufferIndex page cy = some p) :
    page.toNat < 8 ∧ cy.toNat < 64 ∧ p.bufferIndex.toNat = 8 * cy.toNat + page.toNat := by
  have hin : ¬ (8 ≤ page.toNat ∨ 64 ≤ cy.toNat) := by
    rw [← pageToBufferIndex_eq_none_iff, h]
    exact Option.some_ne_none p
  have hp : page.toNat < 8 := by omega
  have hy : cy.toNat < 64 := by omega
  cases (pageToBufferIndex_eq_some hp hy).symm.trans h
  exact ⟨hp, hy, bufferIndexOf_toNat hp hy⟩

theorem pageToBufferIndex_injective {page cy page' cy' : Byte} {p p' : PagePlace}
    (h : pageToBufferIndex page cy = some p) (h' : pageToBufferIndex page' cy' = some p')
    (hi : p.bufferIndex = p'.bufferIndex) : page = page' ∧ cy = cy' := by
  obtain ⟨hp, -, hv⟩ := bufferIndex_of_pageToBufferIndex_eq_some h
  obtain ⟨hp', -, hv'⟩ := bufferIndex_of_pageToBufferIndex_eq_some h'
  rw [hi] at hv
  exact ⟨BitVec.eq_of_toNat_eq (by omega), BitVec.eq_of_toNat_eq (by omega)⟩

/-- Entry i is that of page i % 8 in row i / 8. -/
theorem pageToBufferIndex_surjective (i : EntryIndex) :
    ∃ page cy : Byte, ∃ p, pageToBufferIndex page cy = some p ∧ p.bufferIndex = i := by
  have hi : i.toNat < 512 := i.isLt
  have hp : (BitVec.ofNat 8 (i.toNat % 8)).toNat = i.toNat % 8 := byte_toNat_of_lt (by omega)
  have hy : (BitVec.ofNat 8 (i.toNat / 8)).toNat = i.toNat / 8 := byte_toNat_of_lt (by omega)
  refine ⟨BitVec.ofNat 8 (i.toNat % 8), BitVec.ofNat 8 (i.toNat / 8), _,
    pageToBufferIndex_eq_some (by omega) (by omega), BitVec.eq_of_toNat_eq ?_⟩
  rw [bufferIndexOf_toNat (by omega) (by omega), hp, hy, Nat.div_add_mod]

/-- The pixel translation is the page translation at page cx / 16 on all they share (41_translator R132). -/
theorem pixelToBufferIndex_map_eq (cx cy : Byte) :
    (pixelToBufferIndex cx cy).map (fun p => (p.bufferIndex, p.cpage, p.crow)) =
      (pageToBufferIndex (BitVec.ofNat 8 (cx.toNat / 16)) cy).map fun p => (p.bufferIndex, p.cpage, p.crow) := by
  by_cases h : 128 ≤ cx.toNat ∨ 64 ≤ cy.toNat
  · rw [pixelToBufferIndex_eq_none h, pageToBufferIndex_div_eq_none_iff.mpr h]
    rfl
  · have hpage : (BitVec.ofNat 8 (cx.toNat / 16)).toNat = cx.toNat / 16 := byte_toNat_of_lt (by omega)
    rw [pixelToBufferIndex_eq_some (by omega) (by omega), pageToBufferIndex_eq_some (by omega) (by omega), hpage]
    rfl

/-! ### The text translations -/

theorem textFold_toNat {cx cy : Nat} (hx : cx < 8) (hy : cy < 8) :
    (textFold cx cy).wideCx.toNat = cx + (if 4 ≤ cy then 8 else 0) ∧
    (textFold cx cy).wideCy.toNat = (if 4 ≤ cy then cy - 4 else cy) := by
  by_cases h : 4 ≤ cy
  · simpa only [if_pos h] using textFold_toNat_of_ge hx h hy
  · simpa only [if_neg h, Nat.add_zero] using textFold_toNat_of_lt hx (Nat.lt_of_not_le h)

/-- The filler space is asked for exactly by the odd columns. -/
theorem getLsbD_zero_iff_odd (cx : Byte) : cx.getLsbD 0 = true ↔ cx.toNat % 2 = 1 := by
  rw [BitVec.getLsbD, Nat.testBit_zero, decide_eq_true_eq]

/-- The wide-text translation is the narrow one of column 2 cx, without the space (41_translator R134). -/
theorem wideTextToWideText_map_eq {cx : Byte} (cy : Byte) (hx : cx.toNat < 8) :
    (wideTextToWideText cx cy).map (fun p => (p.wideCx, p.wideCy, false)) =
      (textToWideTextAddSpace (BitVec.ofNat 8 (2 * cx.toNat)) cy).map fun p => (p.wideCx, p.wideCy, p.addSpace) := by
  have hcol : (BitVec.ofNat 8 (2 * cx.toNat)).toNat = 2 * cx.toNat := byte_toNat_of_lt (by omega)
  by_cases hy : cy.toNat < 8
  · have hspace : (BitVec.ofNat 8 (2 * cx.toNat)).getLsbD 0 = false := by
      rw [← Bool.not_eq_true, getLsbD_zero_iff_odd]
      omega
    rw [wideTextToWideText_eq_some hx hy, textToWideTextAddSpace_eq_some (by omega) hy, hspace, hcol,
      Nat.mul_div_cancel_left _ Nat.two_pos]
    rfl
  · rw [wideTextToWideText_eq_none (by omega), textToWideTextAddSpace_eq_none (by omega)]
    rfl

end Sys2Proof.Machine

open Sys2Proof Sys2Proof.Machine

/-- Settles O35: the fold's values, from which its injectivity, and a preimage for each half. -/
theorem foldIsABijection : Obligations.FoldIsABijection :=
  ⟨fun _ _ => fold_toNat, fun _ _ _ _ => fold_injective, fold_surjective⟩

/-- Settles O37: entry 8 cy + page is a number with the digits cy and page to base 8. -/
theorem pageTranslation : Obligations.PageTranslation := by
  refine ⟨fun page cy hp hy => ?_, pageToBufferIndex_surjective, fun _ _ _ _ _ _ => pageToBufferIndex_injective,
    fun _ _ => pageToBufferIndex_eq_none, pixelToBufferIndex_map_eq⟩
  have hindex : (bufferIndexOf page.toNat cy.toNat).toNat = 8 * cy.toNat + page.toNat := bufferIndexOf_toNat hp hy
  have hhalf : (bufferIndexOf page.toNat cy.toNat).toNat < 256 ↔ cy.toNat < 32 := by omega
  exact ⟨_, pageToBufferIndex_eq_some hp hy, hindex, hhalf, rfl, rfl⟩

/-- Settles O36: `pixelToBufferIndex` at the page cx / 16, inside the screen and outside. -/
theorem pixelTranslation : Obligations.PixelTranslation := by
  refine fun cx cy => ⟨fun hx hy => ?_, pixelToBufferIndex_eq_none⟩
  exact ⟨_, pixelToBufferIndex_eq_some hx hy, bufferIndexOf_toNat (by omega) hy, bitOffset_toNat _, rfl, rfl⟩

/-- Settles O38: the text fold of the wide column cx / 2. -/
theorem narrowTextTranslation : Obligations.NarrowTextTranslation := by
  refine fun cx cy => ⟨fun hx hy => ?_, textToWideTextAddSpace_eq_none⟩
  obtain ⟨hcol, hline⟩ := textFold_toNat (cx := cx.toNat / 2) (by omega) hy
  exact ⟨_, textToWideTextAddSpace_eq_some hx hy, hcol, hline, getLsbD_zero_iff_odd cx⟩

/-- Settles O39: the text fold of the wide column cx itself. -/
theorem wideTextTranslation : Obligations.WideTextTranslation :=
  fun _ _ => ⟨fun hx hy => ⟨_, wideTextToWideText_eq_some hx hy, textFold_toNat hx hy⟩, wideTextToWideText_eq_none⟩

/-- Settles O40: column 2 cx is even, and its wide column is cx. -/
theorem wideTextIsNarrowTextAtEvenColumn : Obligations.WideTextIsNarrowTextAtEvenColumn :=
  fun _ => wideTextToWideText_map_eq
end

section
/-! The framebuffer commands (42_framebuffer R150 to R158): the failures of the gate and of the range check, what each
command does inside the screen, and which bits it changes. -/

namespace Sys2Proof.Machine

/-! ### Failures -/

section
variable {s : State} {i : Instr}

/-- The gate stands before everything else a gated command does (60_exceptions R253). -/
theorem exec_of_gated (hg : gated i = true) (hs : s.status ≠ .initialized) :
    exec i s = raiseFail .notInitialized s := by
  cases i with
  | setpin | begin | getst => exact absurd hg nofun
  | _ => exact requireInitialized_of_ne hs

variable {α : Type} {p : Option α} {body : α → Result}

theorem gate_translated_of_none (hs : s.status = .initialized) (hp : p = none) :
    requireInitialized s (translated p s body) = raiseFail .outOfRange s := by
  rw [requireInitialized_of_initialized hs, hp, translated_none]

theorem gate_translated_of_some {x : α} (hs : s.status = .initialized) (hp : p = some x) :
    requireInitialized s (translated p s body) = body x := by
  rw [requireInitialized_of_initialized hs, hp, translated_some]

/-- Behind an open gate a coordinate out of range fails, whatever the other operands (60_exceptions R251). -/
theorem exec_of_outOfRange (hs : s.status = .initialized) (h : outOfRange i = true) :
    exec i s = raiseFail .outOfRange s := by
  cases i with
  | setpx | getpx | tglpx => exact gate_translated_of_none hs (pixelToBufferIndex_eq_none (of_decide_eq_true h))
  | setpg | getpg | tglpg | pntpg =>
    exact gate_translated_of_none hs (pageToBufferIndex_eq_none (of_decide_eq_true h))
  | pntpx => exact gate_translated_of_none hs (pageToBufferIndex_div_eq_none_iff.mpr (of_decide_eq_true h))
  | settc => exact gate_translated_of_none hs (textToWideTextAddSpace_eq_none (of_decide_eq_true h))
  | setwtc => exact gate_translated_of_none hs (wideTextToWideText_eq_none (of_decide_eq_true h))
  | setpin | begin | gfxen | getst | setall | tglall | pntall | prtc | prtw | fillc | fillw => exact absurd h nofun

end

/-! ### Bits of an entry -/

theorem eq_bufferIndexOf_iff {page cy : Nat} (hp : page < 8) (hy : cy < 64) (i : EntryIndex) :
    i = bufferIndexOf page cy ↔ i.toNat = 8 * cy + page := by
  rw [← BitVec.toNat_inj, bufferIndexOf_toNat hp hy]

/-- `1 << bit` has exactly the bit `bit` set (42_framebuffer R158). -/
theorem getLsbD_bitMask (k : BitVec 4) (b : Nat) : (bitMask k).getLsbD b = decide (b = k.toNat) := by
  have hk : k.toNat < 16 := k.isLt
  change (BitVec.twoPow 16 k.toNat).getLsbD b = _
  simp only [BitVec.getLsbD_twoPow, decide_eq_true hk, Bool.true_and, eq_comm]

/-- `(v >> bit) AND 1` is the bit `bit` of v (42_framebuffer R158). -/
theorem okWord_shift_and_one (v : Page) (n : Nat) :
    okWord ((v >>> n) &&& 1#16) = if v.getLsbD n then 0x00001#20 else 0x00000#20 := by
  rw [BitVec.and_one_eq_setWidth_ofBool_getLsbD, BitVec.getLsbD_ushiftRight, Nat.add_zero]
  cases v.getLsbD n <;> rfl

/-- The entry that SETPX writes: one bit of v made `lit` (42_framebuffer R150). -/
def withBit (lit : Bool) (k : BitVec 4) (v : Page) : Page := if lit then v ||| bitMask k else v &&& ~~~(bitMask k)

theorem getLsbD_withBit (lit : Bool) (k : BitVec 4) (v : Page) {b : Nat} (hb : b < 16) :
    (withBit lit k v).getLsbD b = if b = k.toNat then lit else v.getLsbD b := by
  cases lit with
  | true =>
    rw [withBit, if_pos rfl, BitVec.getLsbD_or, getLsbD_bitMask]
    by_cases h : b = k.toNat <;> simp [h]
  | false =>
    rw [withBit, if_neg Bool.false_ne_true, BitVec.getLsbD_and, BitVec.getLsbD_not, getLsbD_bitMask, decide_eq_true hb]
    by_cases h : b = k.toNat <;> simp [h]

theorem getLsbD_xor_bitMask (k : BitVec 4) (v : Page) (b : Nat) :
    (v ^^^ bitMask k).getLsbD b = if b = k.toNat then !v.getLsbD b else v.getLsbD b := by
  by_cases h : b = k.toNat <;> simp [getLsbD_bitMask, h]

/-! ### Writes of one entry -/

/-- FB[i] <- FB[i] XOR mask, which TGLPX and TGLPG share (42_framebuffer R152, R155). -/
def fbXor (i : EntryIndex) (mask : Page) (s : State) : State := fbWrite i (fbRead s i ^^^ mask) s

theorem fbRead_fbXor (i j : EntryIndex) (mask : Page) (s : State) :
    fbRead (fbXor i mask s) j = if j = i then fbRead s j ^^^ mask else fbRead s j := by
  rw [fbXor, fbRead_fbWrite]
  split
  · next h => rw [h]
  · rfl

/-- The same mask again restores the framebuffer. -/
theorem fbXor_twice_fb (i : EntryIndex) (mask : Page) (r : ResponseWord) (s : State) :
    (fbXor i mask (respond r (fbXor i mask s))).fb = s.fb := by
  refine fb_ext fun j => ?_
  rw [fbRead_fbXor, fbRead_respond, fbRead_fbXor]
  split
  · rw [BitVec.xor_assoc, BitVec.xor_self, BitVec.xor_zero]
  · rfl

theorem fbXor_zero_fb (i : EntryIndex) (s : State) : (fbXor i 0#16 s).fb = s.fb := by
  refine fb_ext fun j => ?_
  rw [fbRead_fbXor, BitVec.xor_zero, ite_self]

/-- Complementing every entry twice restores the framebuffer. -/
theorem fbComplement_twice_fb (r : ResponseWord) (s : State) :
    (fbComplement (respond r (fbComplement s))).fb = s.fb := by
  refine fb_ext fun j => ?_
  rw [fbRead_fbComplement, fbRead_respond, fbRead_fbComplement, BitVec.not_not]

/-! ### What each command does inside the screen -/

section
variable {s : State} (hs : s.status = .initialized)
include hs

theorem exec_setall_of_initialized (lit : Bool) :
    exec (.setall lit) s = .next (respond (okWord 0) (fbFill (if lit then 0xFFFF#16 else 0x0000#16) s)) :=
  requireInitialized_of_initialized hs

theorem exec_tglall_of_initialized : exec .tglall s = .next (respond (okWord 0) (fbComplement s)) :=
  requireInitialized_of_initialized hs

section
variable {page cy : Byte} (hp : page.toNat < 8) (hy : cy.toNat < 64)
include hp hy

theorem exec_setpg_of_inRange (value : Page) : exec (.setpg page cy value) s =
    .next (respond (okWord 0) (fbWrite (bufferIndexOf page.toNat cy.toNat) value s)) := by
  rw [exec, execSetpg, gate_translated_of_some hs (pageToBufferIndex_eq_some hp hy)]
  rfl

theorem exec_getpg_of_inRange : exec (.getpg page cy) s =
    onlyResponse s (okWord (fbRead s (bufferIndexOf page.toNat cy.toNat))) := by
  rw [exec, execGetpg, gate_translated_of_some hs (pageToBufferIndex_eq_some hp hy)]
  rfl

theorem exec_tglpg_of_inRange (mask : Page) : exec (.tglpg page cy mask) s =
    .next (respond (okWord 0) (fbXor (bufferIndexOf page.toNat cy.toNat) mask s)) := by
  rw [exec, execTglpg, gate_translated_of_some hs (pageToBufferIndex_eq_some hp hy)]
  rfl

end

section
variable {cx cy : Byte} (hx : cx.toNat < 128) (hy : cy.toNat < 64)
include hx hy

theorem exec_setpx_of_inRange (lit : Bool) : exec (.setpx cx cy lit) s =
    .next (respond (okWord 0) (fbWrite (bufferIndexOf (cx.toNat / 16) cy.toNat)
      (withBit lit (BitVec.ofNat 4 (15 - cx.toNat % 16)) (fbRead s (bufferIndexOf (cx.toNat / 16) cy.toNat))) s)) := by
  rw [exec, execSetpx, gate_translated_of_some hs (pixelToBufferIndex_eq_some hx hy)]
  cases lit <;> rfl

theorem exec_tglpx_of_inRange : exec (.tglpx cx cy) s =
    .next (respond (okWord 0) (fbXor (bufferIndexOf (cx.toNat / 16) cy.toNat)
      (bitMask (BitVec.ofNat 4 (15 - cx.toNat % 16))) s)) := by
  rw [exec, execTglpx, gate_translated_of_some hs (pixelToBufferIndex_eq_some hx hy)]
  rfl

/-- GETPX answers the pixel's bit, whatever index names the pixel's entry (42_framebuffer R151). -/
theorem exec_getpx_of_inRange {i : EntryIndex} (hi : i.toNat = 8 * cy.toNat + cx.toNat / 16) :
    exec (.getpx cx cy) s =
      onlyResponse s (if (fbRead s i).getLsbD (15 - cx.toNat % 16) then 0x00001#20 else 0x00000#20) := by
  rw [(eq_bufferIndexOf_iff (by omega) hy i).mpr hi, ← okWord_shift_and_one, ← bitOffset_toNat, exec, execGetpx,
    gate_translated_of_some hs (pixelToBufferIndex_eq_some hx hy)]
  rfl

end

end

theorem onlyResponse_inj {s : State} {r r' : ResponseWord} (h : onlyResponse s r = onlyResponse s r') : r = r' := by
  simpa using h

/-- What GETPX answers depends on the status and the pixel's bit alone. -/
theorem exec_getpx_congr {cx cy : Byte} {s t : State} {r : ResponseWord} (hs : s.status = .initialized)
    (ht : t.status = .initialized)
    (hbit : cx.toNat < 128 → cy.toNat < 64 → ∀ i : EntryIndex, i.toNat = 8 * cy.toNat + cx.toNat / 16 →
      (fbRead t i).getLsbD (15 - cx.toNat % 16) = (fbRead s i).getLsbD (15 - cx.toNat % 16))
    (h : exec (.getpx cx cy) s = onlyResponse s r) : exec (.getpx cx cy) t = onlyResponse t r := by
  by_cases hout : 128 ≤ cx.toNat ∨ 64 ≤ cy.toNat
  · have hrange : outOfRange (.getpx cx cy) = true := decide_eq_true hout
    rw [exec_of_outOfRange hs hrange] at h
    rw [exec_of_outOfRange ht hrange, ← onlyResponse_inj h]
    rfl
  · have hx : cx.toNat < 128 := by omega
    have hy : cy.toNat < 64 := by omega
    have hi := bufferIndexOf_toNat (page := cx.toNat / 16) (by omega) hy
    rw [exec_getpx_of_inRange hs hx hy hi] at h
    rw [exec_getpx_of_inRange ht hx hy hi, hbit hx hy _ hi, onlyResponse_inj h]

/-- A write of a pixel's entry that changes only the pixel's bit, by `f`, changes no other bit of any entry. -/
theorem getLsbD_fbRead_fbWrite_pixel {cx cy : Nat} (hx : cx < 128) (hy : cy < 64) {v : Page} {s : State}
    {f : Bool → Bool} (hv : ∀ b < 16, v.getLsbD b =
      if b = 15 - cx % 16 then f ((fbRead s (bufferIndexOf (cx / 16) cy)).getLsbD b)
      else (fbRead s (bufferIndexOf (cx / 16) cy)).getLsbD b) (i : EntryIndex) (b : Nat) (hb : b < 16) :
    (fbRead (fbWrite (bufferIndexOf (cx / 16) cy) v s) i).getLsbD b =
      if i.toNat = 8 * cy + cx / 16 ∧ b = 15 - cx % 16 then f ((fbRead s i).getLsbD b)
      else (fbRead s i).getLsbD b := by
  have hi := eq_bufferIndexOf_iff (page := cx / 16) (by omega) hy i
  rw [fbRead_fbWrite]
  by_cases h : i = bufferIndexOf (cx / 16) cy
  · rw [if_pos h, hv b hb, ← h]
    simp only [hi.mp h, true_and]
  · simp only [if_neg h, mt hi.mpr h, false_and, if_false]

end Sys2Proof.Machine

open Sys2Proof Sys2Proof.Machine

/-- Settles O27: the pixel's entry and bit are those of its translation. -/
theorem getpxReadsOneBit : Obligations.GetpxReadsOneBit :=
  fun _ _ _ => ⟨fun hs hx hy _ hi => exec_getpx_of_inRange hs hx hy hi, fun hs => exec_of_gated rfl hs,
    fun hs h => exec_of_outOfRange hs (decide_eq_true h)⟩

/-- Settles O26: of the pixel's entry SETPX changes the pixel's bit alone, and GETPX answers that bit. -/
theorem setpxWritesOneBit : Obligations.SetpxWritesOneBit := by
  refine fun cx cy lit s => ⟨fun hs hx hy => ?_, fun hs => exec_of_gated rfl hs,
    fun hs h => exec_of_outOfRange hs (decide_eq_true h)⟩
  have hbits := getLsbD_fbRead_fbWrite_pixel (f := fun _ => lit) hx hy fun b hb =>
    (getLsbD_withBit lit _ (fbRead s _) hb).trans (by rw [bitOffset_toNat])
  refine ⟨_, exec_setpx_of_inRange hs hx hy lit, hbits, ?_, rfl, ⟨rfl, rfl, rfl, rfl, rfl⟩, rfl, rfl⟩
  have hi := bufferIndexOf_toNat (page := cx.toNat / 16) (by omega) hy
  refine (exec_getpx_of_inRange ?_ hx hy hi).trans ?_
  · exact hs
  · rw [fbRead_respond, (hbits _ _ (by omega)).trans (if_pos ⟨hi, rfl⟩)]

/-- Settles O34: by O26 only the pixel's bit changed, and another pair in range has another entry or another bit. -/
theorem pixelReadsBackAndOthersStay : Obligations.PixelReadsBackAndOthersStay := by
  intro cx cy lit s hs hx hy
  obtain ⟨t, ht, hbits, hget, -, ⟨-, -, hstatus, -, -⟩, -, -⟩ := (setpxWritesOneBit cx cy lit s).1 hs hx hy
  refine ⟨t, ht, hget, fun x y r hne => exec_getpx_congr hs (hstatus.trans hs) fun hx' hy' i hi => ?_⟩
  rw [hbits i _ (by omega), if_neg]
  rintro ⟨hentry, hbit⟩
  have hsame : x = cx ∧ y = cy := ⟨BitVec.eq_of_toNat_eq (by omega), BitVec.eq_of_toNat_eq (by omega)⟩
  exact hne.elim (· hsame.1) (· hsame.2)

/-- Settles O28: XOR with the pixel's bit mask inverts the pixel's bit alone, and the same mask again restores it. -/
theorem tglpxInvertsOneBit : Obligations.TglpxInvertsOneBit := by
  refine fun cx cy s => ⟨fun hs hx hy => ?_, fun hs => exec_of_gated rfl hs,
    fun hs h => exec_of_outOfRange hs (decide_eq_true h)⟩
  have hbits := getLsbD_fbRead_fbWrite_pixel (f := not) hx hy fun b _ =>
    (getLsbD_xor_bitMask _ (fbRead s _) b).trans (by rw [bitOffset_toNat])
  refine ⟨_, _, exec_tglpx_of_inRange hs hx hy, hbits, rfl, ⟨rfl, rfl, rfl, rfl, rfl⟩, rfl, rfl,
    exec_tglpx_of_inRange ?_ hx hy, fbXor_twice_fb ..⟩
  exact hs

/-- Settles O29: the entry is written whole, and pixel 16 page + k is its bit 15 - k. -/
theorem setpgWritesOneEntry : Obligations.SetpgWritesOneEntry := by
  refine fun page cy value s => ⟨fun hs hp hy => ?_, fun hs => exec_of_gated rfl hs,
    fun hs h => exec_of_outOfRange hs (decide_eq_true h)⟩
  refine ⟨_, exec_setpg_of_inRange hs hp hy value, fun i => ?_, fun k cx hk hcx => ?_, rfl,
    ⟨rfl, rfl, rfl, rfl, rfl⟩, rfl, rfl⟩
  · simp only [fbRead_respond, fbRead_fbWrite, eq_bufferIndexOf_iff hp hy]
  · have hpage : cx.toNat / 16 = page.toNat := by omega
    have hcol : cx.toNat % 16 = k := by omega
    refine (exec_getpx_of_inRange ?_ (by omega) hy ((bufferIndexOf_toNat hp hy).trans (by rw [hpage]))).trans ?_
    · exact hs
    · rw [fbRead_respond, fbRead_fbWrite, if_pos rfl, hcol]

/-- Settles O30: a response of success carries the entry as its value. -/
theorem getpgReadsOneEntry : Obligations.GetpgReadsOneEntry := by
  refine fun page cy s => ⟨fun hs hp hy i hi => ?_, fun hs => exec_of_gated rfl hs,
    fun hs h => exec_of_outOfRange hs (decide_eq_true h)⟩
  rw [exec_getpg_of_inRange hs hp hy, ← (eq_bufferIndexOf_iff hp hy i).mpr hi, okWord_eq]

/-- Settles O31: XOR with a zero mask is no change, and XOR twice with the same mask restores the entry. -/
theorem tglpgXorsOneEntry : Obligations.TglpgXorsOneEntry := by
  refine fun page cy xorMask s => ⟨fun hs hp hy => ?_, fun hs => exec_of_gated rfl hs,
    fun hs h => exec_of_outOfRange hs (decide_eq_true h)⟩
  refine ⟨_, _, exec_tglpg_of_inRange hs hp hy xorMask, fun i => ?_, fun hzero => ?_, rfl,
    ⟨rfl, rfl, rfl, rfl, rfl⟩, rfl, rfl, exec_tglpg_of_inRange ?_ hp hy xorMask, fbXor_twice_fb ..⟩
  · simp only [fbRead_respond, fbRead_fbXor, eq_bufferIndexOf_iff hp hy]
  · rw [hzero]
    exact fbXor_zero_fb _ s
  · exact hs

/-- Settles O32: after all ones every bit of every entry is set, the pixel's among them. -/
theorem setallFillsEveryEntry : Obligations.SetallFillsEveryEntry := by
  refine fun lit s => ⟨fun hs => ?_, fun hs => exec_of_gated rfl hs⟩
  refine ⟨_, exec_setall_of_initialized hs lit, fun i => fbRead_fbFill _ s i, fun hlit cx cy hx hy => ?_, rfl,
    ⟨rfl, rfl, rfl, rfl, rfl⟩, rfl, rfl⟩
  refine (exec_getpx_of_inRange ?_ hx hy (bufferIndexOf_toNat (by omega) hy)).trans ?_
  · exact hs
  · have hone : (0xFFFF#16).getLsbD (15 - cx.toNat % 16) = true :=
      (BitVec.getLsbD_allOnes (v := 16)).trans (decide_eq_true (by omega))
    rw [fbRead_respond, fbRead_fbFill, if_pos hlit, hone, if_pos rfl]

/-- Settles O33: the complement is XOR with all ones, and the complement of the complement is the entry. -/
theorem tglallComplementsEveryEntry : Obligations.TglallComplementsEveryEntry := by
  refine fun s => ⟨fun hs => ?_, fun hs => exec_of_gated rfl hs⟩
  refine ⟨_, _, exec_tglall_of_initialized hs, fun i => ?_, rfl, ⟨rfl, rfl, rfl, rfl, rfl⟩, rfl, rfl,
    exec_tglall_of_initialized ?_, fbComplement_twice_fb ..⟩
  · exact (fbRead_fbComplement s i).trans BitVec.xor_allOnes.symm
  · exact hs
end

section
/-! The Bus Transmitter (43_bus R180 to R183): the events of one bus byte, the mode-select byte, and the delays of the
bytes that a command sends. -/

namespace Sys2Proof.Machine

/-! ### One bus byte -/

/-- Lawful parameters give each of the eight data lines one place in DATA_LINE_ORDER (00_scope R10). -/
theorem dataLineOrder_perm {c : Config} (h : c.wf = true) : c.dataLineOrder.Perm (List.finRange 8) := by
  simp only [Config.wf, Bool.and_eq_true, List.isPerm_iff] at h
  obtain ⟨⟨-, hdata⟩, -⟩ := h
  exact hdata.trans (by decide)

theorem length_busEvents {s : State} (h : s.cfg.wf = true) (b : BusByte) : (busEvents s b).length = 15 := by
  have hlines : s.cfg.dataLineOrder.length = 8 := by rw [(dataLineOrder_perm h).length_eq, List.length_finRange]
  simp [busEvents, hlines]

/-! ### The mode-select byte -/

theorem modeSelect_extended (cfg : Config) (gfxEn : Bool) : modeSelect cfg gfxEn true =
    ⟨false, if gfxEn then cfg.cmdExtended ||| cfg.gfxBit else cfg.cmdExtended, .cmdLong⟩ := by
  cases gfxEn with
  | true => rfl
  | false => simp [modeSelect]

@[simp] theorem modeSelect_postDelay (cfg : Config) (gfxEn extended : Bool) :
    (modeSelect cfg gfxEn extended).postDelay = .cmdLong := by
  cases extended <;> rfl

@[simp] theorem modeSelect_isData (cfg : Config) (gfxEn extended : Bool) :
    (modeSelect cfg gfxEn extended).isData = false := by
  cases extended <;> rfl

/-! ### The bytes with the short delay -/

@[simp] theorem cmd_postDelay (b : Byte) : (cmd b).postDelay = .cmdShort := rfl

@[simp] theorem data_postDelay (b : Byte) : (data b).postDelay = .cmdShort := rfl

/-- Every byte of a bus-byte trace gets T_CMD_SHORT (43_bus R181). -/
def AllShort (bs : List BusByte) : Prop := ∀ b ∈ bs, b.postDelay = .cmdShort

@[simp] theorem allShort_nil : AllShort [] := nofun

@[simp] theorem allShort_cons {b : BusByte} {bs : List BusByte} :
    AllShort (b :: bs) ↔ b.postDelay = .cmdShort ∧ AllShort bs :=
  List.forall_mem_cons

@[simp] theorem allShort_append {as bs : List BusByte} : AllShort (as ++ bs) ↔ AllShort as ∧ AllShort bs :=
  List.forall_mem_append

theorem allShort_flatMap {α : Type} {l : List α} {f : α → List BusByte} (h : ∀ x ∈ l, AllShort (f x)) :
    AllShort (l.flatMap f) := by
  intro b hb
  obtain ⟨x, hl, hx⟩ := List.mem_flatMap.mp hb
  exact h x hl b hx

theorem allShort_replicate {b : BusByte} (h : b.postDelay = .cmdShort) (n : Nat) : AllShort (List.replicate n b) :=
  fun _ hb => List.eq_of_mem_replicate hb ▸ h

theorem allShort_flatten_replicate {bs : List BusByte} (h : AllShort bs) (n : Nat) :
    AllShort (List.replicate n bs).flatten := by
  intro b hb
  obtain ⟨bs', hbs', hb'⟩ := List.mem_flatten.mp hb
  rw [List.eq_of_mem_replicate hbs'] at hb'
  exact h b hb'

@[simp] theorem allShort_dataPage (v : Page) : AllShort (dataPage v) := by simp [dataPage]

theorem allShort_pageBytes (cfg : Config) (p : PagePlace) (v : Page) : AllShort (pageBytes cfg p v) := by
  simp [pageBytes]

theorem allShort_rowBytes (s : State) (r : Nat) : AllShort (rowBytes s r) :=
  allShort_append.mpr ⟨by simp, allShort_flatMap fun _ _ => allShort_dataPage _⟩

theorem allShort_cursorBytes (cfg : Config) (wideCx : BitVec 4) (wideCy : BitVec 2) :
    AllShort (cursorBytes cfg wideCx wideCy) := by
  simp [cursorBytes, allShort_replicate (cmd_postDelay _)]

theorem allShort_spaceBytes (cfg : Config) (addSpace : Bool) : AllShort (spaceBytes cfg addSpace) := by
  cases addSpace <;> simp [spaceBytes]

theorem allShort_fillBytes {row : List BusByte} (h : AllShort row) : AllShort (fillBytes row) := by
  simp [fillBytes, h]

/-! ### What a command that succeeds sends -/

theorem status_of_completes {i : Instr} {s : State} (hc : completes i s = true) (hg : gated i = true) :
    s.status = .initialized := by
  by_contra hs
  exact absurd hc (by simp [completes_of_status_ne hg hs])

/-- A success that selected an instruction mode and then sent bytes, each with the short delay. -/
def SelectsThenSends (extended : Bool) (s : State) (r : Result) : Prop :=
  ∃ bs, AllShort bs ∧ r = respondOk 0 (sendBytes bs (selectInstructionMode extended s))

section
variable {i : Instr} {s : State} (hc : completes i s = true)
include hc

theorem SelectsThenSends.gated {e : Bool} {body : Result} (hg : gated i = true) (hb : SelectsThenSends e s body) :
    SelectsThenSends e s (requireInitialized s body) := by
  rwa [requireInitialized_of_initialized (status_of_completes hc hg)]

/-- The translation of a command that completes answers a place. -/
theorem SelectsThenSends.translated {e : Bool} {α : Type} {p : Option α} {body : α → Result}
    (hp : p = none → outOfRange i = true) (hb : ∀ x, SelectsThenSends e s (body x)) :
    SelectsThenSends e s (translated p s body) := by
  cases p with
  | none => exact absurd hc (by simp [completes_of_outOfRange s (hp rfl)])
  | some x => exact hb x

/-- What PNTPG and PNTPX share (44_paint R200, R202). -/
theorem selectsThenSends_paintPage {page cy : Byte} (hp : pageToBufferIndex page cy = none → outOfRange i = true) :
    SelectsThenSends true s (paintPage page cy s) :=
  .translated hc hp fun p => ⟨_, allShort_pageBytes _ p _, rfl⟩

/-- Every command with a mode of its own selects it before it sends anything else (44_paint, 45_text). -/
theorem exec_selectsThenSends {m : IMode} (hm : selectsMode i = some m) :
    SelectsThenSends (decide (m = .extended)) s (exec i s) := by
  cases i with
  | pntpg page cy =>
    cases hm
    exact .gated hc rfl (selectsThenSends_paintPage hc fun hn => decide_eq_true (pageToBufferIndex_eq_none_iff.mp hn))
  | pntall =>
    cases hm
    exact .gated hc rfl ⟨_, allShort_flatMap fun r _ => allShort_rowBytes s r, rfl⟩
  | pntpx cx cy =>
    cases hm
    exact .gated hc rfl
      (selectsThenSends_paintPage hc fun hn => decide_eq_true (pageToBufferIndex_div_eq_none_iff.mp hn))
  | settc cx cy =>
    cases hm
    exact .gated hc rfl (.translated hc (fun hn => decide_eq_true (textToWideTextAddSpace_eq_none_iff.mp hn)) fun _ =>
      ⟨_, allShort_append.mpr ⟨allShort_cursorBytes _ _ _, allShort_spaceBytes _ _⟩, rfl⟩)
  | setwtc cx cy =>
    cases hm
    exact .gated hc rfl (.translated hc (fun hn => decide_eq_true (wideTextToWideText_eq_none_iff.mp hn)) fun _ =>
      ⟨_, allShort_cursorBytes _ _ _, rfl⟩)
  | fillc c =>
    cases hm
    exact .gated hc rfl ⟨_, allShort_fillBytes (allShort_replicate rfl _), rfl⟩
  | fillw w =>
    cases hm
    exact .gated hc rfl ⟨_, allShort_fillBytes (allShort_flatten_replicate (allShort_dataPage w) _), rfl⟩
  | _ => exact absurd hm nofun

/-- Of the commands without a mode, only PRTC and PRTW send bytes. -/
theorem exec_sends_of_selectsMode_eq_none (hm : selectsMode i = none) (hb : i ≠ .begin) :
    ∃ t bs, exec i s = .next t ∧ t.trace = s.trace ++ eventsOf s bs ∧ AllShort bs := by
  cases i with
  | prtc c =>
    exact ⟨_, [data c], requireInitialized_of_initialized (status_of_completes hc rfl), by simp [eventsOf], by simp⟩
  | prtw w =>
    exact ⟨_, dataPage w, requireInitialized_of_initialized (status_of_completes hc rfl), rfl, allShort_dataPage w⟩
  | _ =>
    obtain ⟨t, ht⟩ := exec_next _ s
    obtain ⟨-, -, -, -, -, -, -, htrace⟩ := whoWritesWhat _ s t ht
    exact ⟨t, [], ht, by rw [htrace hm hb nofun nofun, eventsOf, List.flatMap_nil, List.append_nil], nofun⟩

end

/-- Bytes sent after a mode select stand behind its byte in one bus-byte trace. -/
theorem sendBytes_selectInstructionMode_trace (bs : List BusByte) (e : Bool) (s : State) :
    (sendBytes bs (selectInstructionMode e s)).trace =
      s.trace ++ eventsOf s ([modeSelect s.cfg s.gfxEn e] ++ bs) := by
  simp [eventsOf]

end Sys2Proof.Machine

open Sys2Proof.Machine

/-- Settles O41: `busEvents` are the fifteen events, and a lawful order is a permutation of the eight lines. -/
theorem sendByteIsFifteenEvents : Obligations.SendByteIsFifteenEvents := by
  intro b s hwf
  refine ⟨_, rfl, rfl, (dataLineOrder_perm hwf).map _, ?_, ⟨rfl, rfl, rfl, rfl, rfl⟩, rfl, fun _ => rfl, rfl⟩
  rw [sendByte_trace, List.length_append, length_busEvents hwf]

/-- Settles O44: a command with a mode sends its mode select before its other bytes, and all of these, as all bytes
of a command without one, have the short delay. -/
theorem longDelayOnlyAfterModeSelect : Obligations.LongDelayOnlyAfterModeSelect := by
  intro i s hc hb
  cases hm : selectsMode i with
  | none =>
    obtain ⟨t, bs, ht, htrace, hshort⟩ := exec_sends_of_selectsMode_eq_none hc hm hb
    exact ⟨t, [], bs, ht, htrace, fun _ => rfl, nofun, nofun, hshort⟩
  | some m =>
    obtain ⟨bs, hshort, ht⟩ := exec_selectsThenSends hc hm
    refine ⟨_, _, bs, ht, sendBytes_selectInstructionMode_trace bs _ s, nofun, ?_, by simp, hshort⟩
    rintro _ ⟨⟩
    rfl

/-- Settles O43: the two mode-select bytes; nothing but the trace and `imode` is written. -/
theorem selectModeSendsOneByte : Obligations.SelectModeSendsOneByte := by
  refine fun s => ⟨rfl, rfl, ?_, rfl, fun _ => ⟨⟨rfl, rfl, rfl, rfl, rfl⟩, fun _ => rfl, rfl⟩⟩
  rw [selectInstructionMode_trace, modeSelect_extended]
end

section
/-! The paint commands (44_paint R200 to R203): the state they leave, the bytes of a page and of a row, and where each
byte of PNTALL's trace stands. -/

namespace Sys2Proof.Machine

/-! ### Lists cut into pieces of one length -/

theorem length_flatMap_of_length {α β : Type} {f : α → List β} {n : Nat} (hf : ∀ x, (f x).length = n)
    (l : List α) : (l.flatMap f).length = n * l.length := by
  simp [List.length_flatMap, hf, Nat.mul_comm]

/-- Place k of piece r is place n r + k of the whole. -/
theorem getElem?_flatMap_of_length {α β : Type} {f : α → List β} {n k : Nat} (hf : ∀ x, (f x).length = n)
    (hk : k < n) {l : List α} {r : Nat} {x : α} (hx : l[r]? = some x) : (l.flatMap f)[n * r + k]? = (f x)[k]? := by
  induction l generalizing r with
  | nil => exact absurd hx nofun
  | cons y ys ih =>
    rw [List.flatMap_cons]
    cases r with
    | zero =>
      cases hx
      rw [Nat.mul_zero, Nat.zero_add, List.getElem?_append_left (by rwa [hf])]
    | succ r =>
      have hplace : n * (r + 1) + k - n = n * r + k := by rw [Nat.mul_succ]; omega
      rw [List.getElem?_append_right (by rw [hf, Nat.mul_succ]; omega), hf, hplace, ih hx]

/-! ### The state after painting -/

theorem length_eventsOf {s : State} (h : s.cfg.wf = true) (bs : List BusByte) :
    (eventsOf s bs).length = 15 * bs.length :=
  length_flatMap_of_length (length_busEvents h) bs

theorem eventsOf_congr {s t : State} (hp : t.pins = s.pins) (hc : t.cfg = s.cfg) : eventsOf t = eventsOf s := by
  funext bs
  rw [eventsOf, eventsOf, busEvents_congr hp hc]

/-- What a paint command that succeeds leaves: the extended mode selected, `bs` sent, success answered. -/
def painted (bs : List BusByte) (s : State) : State :=
  respond (okWord 0) (sendBytes bs (selectInstructionMode true s))

theorem painted_trace (bs : List BusByte) (s : State) :
    (painted bs s).trace = s.trace ++ eventsOf s (modeSelect s.cfg s.gfxEn true :: bs) :=
  sendBytes_selectInstructionMode_trace bs true s

theorem length_painted_trace {s : State} (h : s.cfg.wf = true) (bs : List BusByte) :
    (painted bs s).trace.length = s.trace.length + 15 * (bs.length + 1) := by
  rw [painted_trace, List.length_append, length_eventsOf h, List.length_cons]

/-- All that painting changes beside the trace. -/
theorem painted_frame (bs : List BusByte) (s : State) :
    (painted bs s).imode = .extended ∧ (painted bs s).responses = s.responses ++ [0x00000#20] ∧
      SameControl s (painted bs s) ∧ SameFramebuffer s (painted bs s) :=
  ⟨rfl, rfl, ⟨rfl, rfl, rfl, rfl, rfl⟩, fun _ => rfl⟩

/-! ### One page -/

/-- The bytes of a page after the mode select: the folded address, then the entry (44_paint R200). -/
theorem pageBytes_fold {page cy : Nat} (hp : page < 8) (hy : cy < 64) (cfg : Config) (i : EntryIndex) (v : Page) :
    pageBytes cfg ⟨i, (fold page cy).cpage, (fold page cy).crow⟩ v =
      [⟨false, cfg.addrFlag ||| BitVec.ofNat 8 (if 32 ≤ cy then cy - 32 else cy), .cmdShort⟩,
       ⟨false, cfg.addrFlag ||| BitVec.ofNat 8 (if 32 ≤ cy then page + 8 else page), .cmdShort⟩,
       ⟨true, v.extractLsb' 8 8, .cmdShort⟩, ⟨true, v.extractLsb' 0 8, .cmdShort⟩] := by
  obtain ⟨hpage, hrow⟩ := fold_toNat hp hy
  rw [← hpage, ← hrow, BitVec.ofNat_toNat, BitVec.ofNat_toNat]
  rfl

theorem exec_pntpg_of_inRange {s : State} {page cy : Byte} (hs : s.status = .initialized) (hp : page.toNat < 8)
    (hy : cy.toNat < 64) : exec (.pntpg page cy) s = .next (painted (pageBytes s.cfg
      ⟨bufferIndexOf page.toNat cy.toNat, (fold page.toNat cy.toNat).cpage, (fold page.toNat cy.toNat).crow⟩
      (fbRead s (bufferIndexOf page.toNat cy.toNat))) s) := by
  rw [exec, execPntpg, paintPage, gate_translated_of_some hs (pageToBufferIndex_eq_some hp hy)]
  rfl

/-- PNTPX is PNTPG, failures included (44_paint R202). -/
theorem exec_pntpx (cx cy : Byte) (s : State) :
    exec (.pntpx cx cy) s = exec (.pntpg (BitVec.ofNat 8 (cx.toNat / 16)) cy) s := rfl

/-! ### All rows -/

section
variable (s : State)

theorem length_rowBytes (r : Nat) : (rowBytes s r).length = 18 := by
  rw [rowBytes, List.length_append, length_flatMap_of_length (n := 2) fun _ => rfl]
  rfl

/-- Entry 8 r + p stands in its row behind the two address bytes and p entries. -/
theorem rowBytes_getElem?_entry {r p k : Nat} (hp : p < 8) (hk : k < 2) :
    (rowBytes s r)[2 + 2 * p + k]? = (dataPage (fbRead s (bufferIndexOf p r)))[k]? := by
  have hplace : 2 + 2 * p + k = 2 * p + k + 1 + 1 := by omega
  rw [hplace]
  exact getElem?_flatMap_of_length (f := fun p => dataPage (fbRead s (bufferIndexOf p r))) (fun _ => rfl) hk
    (List.getElem?_range hp)

/-- The bytes of PNTALL after its mode select (44_paint R201). -/
def allRowsBytes : List BusByte := (List.range 64).flatMap (rowBytes s)

theorem length_allRowsBytes : (allRowsBytes s).length = 1152 := by
  rw [allRowsBytes, length_flatMap_of_length (length_rowBytes s), List.length_range]

theorem allRowsBytes_getElem? {r k : Nat} (hr : r < 64) (hk : k < 18) :
    (allRowsBytes s)[18 * r + k]? = (rowBytes s r)[k]? :=
  getElem?_flatMap_of_length (length_rowBytes s) hk (List.getElem?_range hr)

/-- The bytes of PNTALL, at the places 44_paint R201 counts from its mode select at 0. -/
theorem pntallBytes_getElem? (b : BusByte) {r k : Nat} (hr : r < 64) (hk : k < 18) :
    (b :: allRowsBytes s)[1 + k + 18 * r]? = (rowBytes s r)[k]? := by
  have hplace : 1 + k + 18 * r = 18 * r + k + 1 := by omega
  rw [hplace, List.getElem?_cons_succ, allRowsBytes_getElem? s hr hk]

theorem pntallBytes_getElem?_entry (b : BusByte) {r p k : Nat} {i : EntryIndex} (hr : r < 64) (hp : p < 8)
    (hi : i.toNat = 8 * r + p) (hk : k < 2) :
    (b :: allRowsBytes s)[3 + k + 18 * r + 2 * p]? = (dataPage (fbRead s i))[k]? := by
  have hplace : 3 + k + 18 * r + 2 * p = 1 + (2 + 2 * p + k) + 18 * r := by omega
  rw [hplace, pntallBytes_getElem? s b hr (by omega), rowBytes_getElem?_entry s hp hk,
    (eq_bufferIndexOf_iff hp hr i).mpr hi]

theorem exec_pntall_of_initialized (hs : s.status = .initialized) :
    exec .pntall s = .next (painted (allRowsBytes s) s) :=
  requireInitialized_of_initialized hs

end

end Sys2Proof.Machine

open Sys2Proof Sys2Proof.Machine

/-- Settles O46: the mode select is followed by the four bytes of the page at its folded address. -/
theorem pntpgSendsOnePage : Obligations.PntpgSendsOnePage := by
  refine fun page cy s => ⟨fun hs hp hy i hi => ?_, fun hs => exec_of_gated rfl hs,
    fun hs h => exec_of_outOfRange hs (decide_eq_true h)⟩
  refine ⟨_, exec_pntpg_of_inRange hs hp hy, ?_, fun hwf => length_painted_trace hwf _, painted_frame _ s⟩
  rw [(eq_bufferIndexOf_iff hp hy i).mpr hi, painted_trace, pageBytes_fold hp hy]
  rfl

/-- Settles O47: place k of row r is place 1 + k + 18 r of the trace, after the mode select. -/
theorem pntallStreamsEveryEntry : Obligations.PntallStreamsEveryEntry := by
  refine fun s => ⟨fun hs => ?_, fun hs => exec_of_gated rfl hs⟩
  refine ⟨_, modeSelect s.cfg s.gfxEn true :: allRowsBytes s, exec_pntall_of_initialized s hs, painted_trace _ s, ?_,
    rfl, fun r hr => ⟨?_, ?_⟩, fun r p i hr hp hi => ?_, fun hwf => ?_, painted_frame _ s⟩
  · rw [List.length_cons, length_allRowsBytes]
  · exact pntallBytes_getElem? s _ hr (k := 0) (by decide)
  · refine (pntallBytes_getElem? s _ hr (k := 1) (by decide)).trans ?_
    simp [rowBytes, cmd]
  · exact ⟨pntallBytes_getElem?_entry s _ hr hp hi (k := 0) (by decide),
      pntallBytes_getElem?_entry s _ hr hp hi (k := 1) (by decide)⟩
  · rw [length_painted_trace hwf, length_allRowsBytes]

/-- Settles O48: page cx / 16 is in the page space exactly when cx is in the pixel space, so PNTPG says the rest. -/
theorem pntpxPaintsContainingPage : Obligations.PntpxPaintsContainingPage := by
  refine fun cx cy s => ⟨exec_pntpx cx cy s, fun hs hx hy => ?_, fun hs => exec_of_gated rfl hs,
    fun hs h => exec_of_outOfRange hs (decide_eq_true h)⟩
  have hpage : (BitVec.ofNat 8 (cx.toNat / 16)).toNat = cx.toNat / 16 := byte_toNat_of_lt (by omega)
  rw [exec_pntpx, exec_pntpg_of_inRange hs (by omega) hy]
  exact ⟨_, _, rfl, painted_trace _ s, rfl, painted_frame _ s⟩

/-- Settles O49: by O32 SETALL 0 clears the entries and leaves the gate open, so PNTALL streams them by O47. -/
theorem clrgfxClearsAndPaints : Obligations.ClrgfxClearsAndPaints := by
  refine ⟨rfl, fun s => ⟨fun hs => ?_, fun hs => ⟨exec_of_gated rfl hs, exec_of_gated rfl hs⟩⟩⟩
  obtain ⟨t, ht, hclear, -, -, ⟨hcfg, hpins, hstatus, -, -⟩, -, htrace⟩ := (setallFillsEveryEntry false s).1 hs
  obtain ⟨u, bs, hu, hsent, hlen, -, -, -, -, -, -, -, hsame⟩ := (pntallStreamsEveryEntry t).1 (hstatus.trans hs)
  refine ⟨t, u, bs, ht, hu, fun i => (hsame i).trans (hclear i), ?_, hlen⟩
  rw [hsent, htrace, eventsOf_congr hpins hcfg]
end

section
/-! The text commands (45_text R220 to R225): the states they leave, with and without a mode select, the bytes that move
the cursor, and the bytes that fill both rows. -/

namespace Sys2Proof.Machine

/-! ### The state after a text command -/

/-- What PRTC and PRTW leave when they succeed: `bs` sent with no mode select, success answered. -/
def printed (bs : List BusByte) (s : State) : State := respond (okWord 0) (sendBytes bs s)

theorem printed_trace (bs : List BusByte) (s : State) : (printed bs s).trace = s.trace ++ eventsOf s bs := rfl

theorem printed_responses (bs : List BusByte) (s : State) :
    (printed bs s).responses = s.responses ++ [0x00000#20] := rfl

/-- All that printing changes beside the trace is the responses. -/
theorem printed_frame (bs : List BusByte) (s : State) :
    (printed bs s).imode = s.imode ∧ (printed bs s).responses = s.responses ++ [0x00000#20] ∧
      SameControl s (printed bs s) ∧ SameFramebuffer s (printed bs s) :=
  ⟨rfl, rfl, ⟨rfl, rfl, rfl, rfl, rfl⟩, fun _ => rfl⟩

theorem eventsOf_append (s : State) (as bs : List BusByte) :
    eventsOf s (as ++ bs) = eventsOf s as ++ eventsOf s bs := List.flatMap_append

@[simp] theorem eventsOf_printed (bs : List BusByte) (s : State) : eventsOf (printed bs s) = eventsOf s :=
  eventsOf_congr rfl rfl

/-- Printing twice sends the two bus-byte traces as one. -/
theorem printed_printed_trace (as bs : List BusByte) (s : State) :
    (printed bs (printed as s)).trace = (printed (as ++ bs) s).trace := by
  simp only [printed_trace, eventsOf_printed, eventsOf_append, List.append_assoc]

/-- What the other text commands leave when they succeed: the basic mode selected, `bs` sent, success answered. -/
def sentInBasic (bs : List BusByte) (s : State) : State :=
  respond (okWord 0) (sendBytes bs (selectInstructionMode false s))

theorem sentInBasic_trace (bs : List BusByte) (s : State) :
    (sentInBasic bs s).trace = s.trace ++ eventsOf s (⟨false, s.cfg.cmdBasic, .cmdLong⟩ :: bs) :=
  sendBytes_selectInstructionMode_trace bs false s

theorem sentInBasic_frame (bs : List BusByte) (s : State) :
    (sentInBasic bs s).imode = .basic ∧ (sentInBasic bs s).responses = s.responses ++ [0x00000#20] ∧
      SameControl s (sentInBasic bs s) ∧ SameFramebuffer s (sentInBasic bs s) :=
  ⟨rfl, rfl, ⟨rfl, rfl, rfl, rfl, rfl⟩, fun _ => rfl⟩

/-! ### The bytes that move the cursor -/

theorem homeCmd_eq (cfg : Config) (n : BitVec 2) :
    homeCmd cfg n = if n.toNat = 0 then 0x80#8 else if n.toNat = 1 then 0x90#8
      else if n.toNat = 2 then cfg.homeCmd2 else cfg.homeCmd3 := by
  unfold homeCmd
  split <;> simp_all [homeRow0, homeRow1]

/-- The home byte of the native row cy % 4, then a cursor-right for each wide column of the fold. -/
theorem cursorBytes_textFold {cx cy : Nat} (hx : cx < 8) (hy : cy < 8) (cfg : Config) :
    cursorBytes cfg (textFold cx cy).wideCx (textFold cx cy).wideCy =
      ⟨false, if cy % 4 = 0 then 0x80#8 else if cy % 4 = 1 then 0x90#8
        else if cy % 4 = 2 then cfg.homeCmd2 else cfg.homeCmd3, .cmdShort⟩ ::
      List.replicate (cx + if 4 ≤ cy then 8 else 0) ⟨false, cfg.cmdCursorRight, .cmdShort⟩ := by
  obtain ⟨hcol, hline⟩ := textFold_toNat hx hy
  have hrow : (textFold cx cy).wideCy.toNat = cy % 4 := by
    rw [hline]
    split <;> omega
  rw [cursorBytes, homeCmd_eq, hcol, hrow]
  rfl

/-- The filler space of SETTC is sent for the odd columns (45_text R220). -/
theorem spaceBytes_getLsbD_zero (cfg : Config) (cx : Byte) :
    spaceBytes cfg (cx.getLsbD 0) = if cx.toNat % 2 = 1 then [⟨true, cfg.charSpace, .cmdShort⟩] else [] := by
  simp only [spaceBytes, getLsbD_zero_iff_odd, data]

/-- A translation's result under a map is translated as the result itself. -/
theorem translated_map {α β : Type} (f : α → β) (p : Option α) (s : State) (body : β → Result) :
    translated (p.map f) s body = translated p s fun x => body (f x) := by
  cases p <;> rfl

/-- What SETTC and SETWTC do with a wide column, a wide line and the choice of a space. -/
def cursorPlaced (s : State) (place : BitVec 4 × BitVec 2 × Bool) : Result :=
  .next (sentInBasic (cursorBytes s.cfg place.1 place.2.1 ++ spaceBytes s.cfg place.2.2) s)

theorem exec_settc (cx cy : Byte) (s : State) : exec (.settc cx cy) s = requireInitialized s
    (translated ((textToWideTextAddSpace cx cy).map fun p => (p.wideCx, p.wideCy, p.addSpace)) s (cursorPlaced s)) := by
  rw [translated_map]
  rfl

/-- SETWTC is SETTC without the space. -/
theorem exec_setwtc (cx cy : Byte) (s : State) : exec (.setwtc cx cy) s = requireInitialized s
    (translated ((wideTextToWideText cx cy).map fun p => (p.wideCx, p.wideCy, false)) s (cursorPlaced s)) := by
  simp only [translated_map, cursorPlaced, spaceBytes, Bool.false_eq_true, if_false, List.append_nil]
  rfl

/-! ### The bytes that fill both rows -/

/-- The bytes of FILLC and FILLW, the mode select included, with one row given (45_text R224, R225). -/
theorem sentInBasic_fillBytes_trace (row : List BusByte) (s : State) :
    (sentInBasic (fillBytes row) s).trace = s.trace ++ eventsOf s
      ([⟨false, s.cfg.cmdBasic, .cmdLong⟩, ⟨false, 0x80#8, .cmdShort⟩] ++ row ++ [⟨false, 0x90#8, .cmdShort⟩] ++
        row) := by
  rw [sentInBasic_trace, List.append_assoc _ [_] row]
  rfl

/-- One row of FILLW: FILL_WIDE times the two bytes of the character (45_text R225). -/
def wideRow (n : Nat) (w : Page) : List BusByte := (List.replicate n w).flatMap dataPage

theorem length_wideRow (n : Nat) (w : Page) : (wideRow n w).length = 2 * n := by
  rw [wideRow, length_flatMap_of_length (n := 2) fun _ => rfl, List.length_replicate]

theorem wideRow_getElem? {n k j : Nat} (w : Page) (hk : k < n) (hj : j < 2) :
    (wideRow n w)[2 * k + j]? = (dataPage w)[j]? :=
  getElem?_flatMap_of_length (f := dataPage) (fun _ => rfl) hj (List.getElem?_replicate_of_lt hk)

/-! ### What each command does behind the open gate -/

section
variable {s : State} (hs : s.status = .initialized)
include hs

theorem exec_settc_of_inRange {cx cy : Byte} (hx : cx.toNat < 16) (hy : cy.toNat < 8) : exec (.settc cx cy) s =
    .next (sentInBasic (cursorBytes s.cfg (textFold (cx.toNat / 2) cy.toNat).wideCx
      (textFold (cx.toNat / 2) cy.toNat).wideCy ++ spaceBytes s.cfg (cx.getLsbD 0)) s) := by
  rw [exec, execSettc, gate_translated_of_some hs (textToWideTextAddSpace_eq_some hx hy)]
  rfl

theorem exec_setwtc_of_inRange {cx cy : Byte} (hx : cx.toNat < 8) (hy : cy.toNat < 8) : exec (.setwtc cx cy) s =
    .next (sentInBasic (cursorBytes s.cfg (textFold cx.toNat cy.toNat).wideCx
      (textFold cx.toNat cy.toNat).wideCy) s) := by
  rw [exec, execSetwtc, gate_translated_of_some hs (wideTextToWideText_eq_some hx hy)]
  rfl

theorem exec_prtc_of_initialized (c : Byte) : exec (.prtc c) s = .next (printed [data c] s) := by
  rw [printed, sendBytes_cons, sendBytes_nil]
  exact requireInitialized_of_initialized hs

theorem exec_prtw_of_initialized (w : Page) : exec (.prtw w) s = .next (printed (dataPage w) s) :=
  requireInitialized_of_initialized hs

theorem exec_fillc_of_initialized (c : Byte) :
    exec (.fillc c) s = .next (sentInBasic (fillBytes (List.replicate s.cfg.fillNarrow (data c))) s) :=
  requireInitialized_of_initialized hs

theorem exec_fillw_of_initialized (w : Page) :
    exec (.fillw w) s = .next (sentInBasic (fillBytes (wideRow s.cfg.fillWide w)) s) := by
  rw [wideRow, List.flatMap_replicate]
  exact requireInitialized_of_initialized hs

end

end Sys2Proof.Machine

open Sys2Proof Sys2Proof.Machine

/-- Settles O50: the fold of the wide column cx / 2 gives the home byte and the steps, the bit cx[0] the space. -/
theorem settcPositionsCursor : Obligations.SettcPositionsCursor := by
  refine fun cx cy s => ⟨fun hs hx hy => ?_, fun hs => exec_of_gated rfl hs,
    fun hs h => exec_of_outOfRange hs (decide_eq_true h)⟩
  refine ⟨_, exec_settc_of_inRange hs hx hy, ?_, sentInBasic_frame _ s⟩
  rw [sentInBasic_trace, cursorBytes_textFold (by omega) hy, spaceBytes_getLsbD_zero]
  rfl

/-- Settles O51: the fold of the wide column cx itself, and no space. -/
theorem setwtcPositionsCursor : Obligations.SetwtcPositionsCursor := by
  refine fun cx cy s => ⟨fun hs hx hy => ?_, fun hs => exec_of_gated rfl hs,
    fun hs h => exec_of_outOfRange hs (decide_eq_true h)⟩
  refine ⟨_, exec_setwtc_of_inRange hs hx hy, ?_, sentInBasic_frame _ s⟩
  rw [sentInBasic_trace, cursorBytes_textFold hx hy]
  rfl

/-- Settles O52: the two commands do the same with a place, and by O40 the two translations give the same place. -/
theorem setwtcIsSettcAtEvenColumn : Obligations.SetwtcIsSettcAtEvenColumn := by
  intro cx cy s hx
  rw [exec_setwtc, exec_settc, wideTextToWideText_map_eq cy hx]

/-- Settles O53: behind the gate stand one data byte and the response alone. -/
theorem prtcSendsOneByte : Obligations.PrtcSendsOneByte :=
  fun c s => ⟨fun hs => ⟨_, exec_prtc_of_initialized hs c, printed_trace _ s, printed_frame _ s⟩,
    fun hs => exec_of_gated rfl hs⟩

/-- Settles O54: `dataPage` is the high byte, then the low one. -/
theorem prtwSendsTwoBytes : Obligations.PrtwSendsTwoBytes :=
  fun w s => ⟨fun hs => ⟨_, exec_prtw_of_initialized hs w, printed_trace _ s, printed_frame _ s⟩,
    fun hs => exec_of_gated rfl hs⟩

/-- Settles O55: printing the two bytes one after the other sends the bytes of the code, and keeps the gate open. -/
theorem prtwIsPrtcTwice : Obligations.PrtwIsPrtcTwice := by
  intro w s hs
  refine ⟨_, _, _, exec_prtw_of_initialized hs w, exec_prtc_of_initialized hs _, exec_prtc_of_initialized ?_ _,
    printed_printed_trace _ _ s, rfl, rfl, rfl, rfl, rfl, rfl, rfl⟩
  exact hs

/-- Settles O56: one row is FILL_NARROW data bytes of the code. -/
theorem fillcFillsBothRows : Obligations.FillcFillsBothRows :=
  fun c s => ⟨fun hs => ⟨_, exec_fillc_of_initialized hs c, sentInBasic_fillBytes_trace _ s, sentInBasic_frame _ s⟩,
    fun hs => exec_of_gated rfl hs⟩

/-- Settles O57: one row is FILL_WIDE pieces of two bytes, so place 2 k + j is byte j of the code. -/
theorem fillwFillsBothRows : Obligations.FillwFillsBothRows := by
  refine fun w s => ⟨fun hs => ?_, fun hs => exec_of_gated rfl hs⟩
  exact ⟨_, wideRow s.cfg.fillWide w, exec_fillw_of_initialized hs w, sentInBasic_fillBytes_trace _ s,
    length_wideRow _ w, fun k hk => ⟨wideRow_getElem? w hk (j := 0) (by decide),
      wideRow_getElem? w hk (j := 1) (by decide)⟩, sentInBasic_frame _ s⟩
end

section
/-! Runs of printing commands (45_text R226, 30_encoding R90): one step for each command presented, an Initialized block
prints each, and a block that is not Initialized fails each. -/

namespace Sys2Proof.Machine

/-! ### Runs over presented commands -/

theorem run_succ_of_step {M : Host.Core} {s t : M.State} {n : Nat} (h : M.step s = .next t) :
    M.run (n + 1) s = M.run n t := by
  rw [Host.Core.run, h]

/-- The first of the presented commands is carried out by the first step, which leaves the others presented. -/
theorem run_present_cons {i : Instr} {is : List Instr} {s t : State} {n : Nat} (hempty : s.commands = [])
    (hi : i.wellFormed = true) (ht : exec i (present (is.map encode) s) = .next t) :
    core.run (n + 1) (present ((i :: is).map encode) s) = core.run n t := by
  have hcommands : (present ((i :: is).map encode) s).commands = encode i :: is.map encode := by
    rw [present_commands, hempty, List.nil_append, List.map_cons]
  have htaken : { present ((i :: is).map encode) s with commands := is.map encode } = present (is.map encode) s := by
    simp only [present, hempty, List.nil_append]
  have hstep : step (present ((i :: is).map encode) s) = .next t := by
    rw [step_of_cons hcommands, performWord_of_ok _ (decodeOfEncode i hi), htaken, ht]
  exact run_succ_of_step hstep

/-- With nothing presented a run of no steps is at its end. -/
theorem run_present_nil {s : State} : core.run 0 (present [] s) = .next s := by
  simp only [Host.Core.run, present, List.append_nil]

/-- A command that succeeds from every Initialized state with `bs` sent and no mode select, and that is gated. -/
structure Prints (i : Instr) (bs : List BusByte) : Prop where
  wellFormed : i.wellFormed = true
  gated : gated i = true
  exec {s : State} : s.status = .initialized → exec i s = .next (printed bs s)

theorem prints_prtc (c : Byte) : Prints (.prtc c) [data c] := ⟨rfl, rfl, (exec_prtc_of_initialized · c)⟩

theorem prints_prtw (w : Page) : Prints (.prtw w) (dataPage w) := ⟨rfl, rfl, (exec_prtw_of_initialized · w)⟩

/-! ### Runs of printing commands -/

section
variable {α : Type} {command : α → Instr} {bytes : α → List BusByte} (hprints : ∀ x, Prints (command x) (bytes x))
  {s : State} (hempty : s.commands = [])
include hprints hempty

theorem run_prints_of_initialized (hs : s.status = .initialized) (xs : List α) :
    core.run xs.length (present ((xs.map command).map encode) s) =
      .next { s with
        trace := s.trace ++ eventsOf s (xs.flatMap bytes)
        responses := s.responses ++ List.replicate xs.length 0x00000#20 } := by
  induction xs generalizing s with
  | nil =>
    rw [List.flatMap_nil, eventsOf, List.flatMap_nil, List.append_nil, List.length_nil, List.replicate_zero,
      List.append_nil]
    exact run_present_nil
  | cons x xs ih =>
    have hfirst : exec (command x) (present ((xs.map command).map encode) s) =
      .next (present ((xs.map command).map encode) (printed (bytes x) s)) := (hprints x).exec hs
    refine (run_present_cons hempty (hprints x).wellFormed hfirst).trans ?_
    refine (ih (s := printed (bytes x) s) hempty hs).trans ?_
    simp only [printed_trace, printed_responses, eventsOf_printed, eventsOf_append, List.flatMap_cons, List.length_cons,
      List.replicate_succ, List.append_assoc]
    rfl

theorem run_prints_of_ne (hs : s.status ≠ .initialized) (xs : List α) :
    core.run xs.length (present ((xs.map command).map encode) s) =
      .next { s with responses := s.responses ++ List.replicate xs.length 0x90000#20 } := by
  induction xs generalizing s with
  | nil =>
    rw [List.length_nil, List.replicate_zero, List.append_nil]
    exact run_present_nil
  | cons x xs ih =>
    have hfirst : exec (command x) (present ((xs.map command).map encode) s) =
      .next (present ((xs.map command).map encode) (respond 0x90000#20 s)) := exec_of_gated (hprints x).gated hs
    refine (run_present_cons hempty (hprints x).wellFormed hfirst).trans ?_
    refine (ih (s := respond 0x90000#20 s) hempty hs).trans ?_
    simp only [respond_responses, List.length_cons, List.replicate_succ, List.append_assoc]
    rfl

end

/-- The whole run of a pseudo-instruction whose commands print, from an Initialized block and from another. -/
theorem textRun {α : Type} {command : α → Instr} {bytes : α → List BusByte}
    (hprints : ∀ x, Prints (command x) (bytes x)) {xs : List α} {p : Pseudo} (hp : p.expand = xs.map command)
    {s : State} (hempty : s.commands = []) :
    (s.status = .initialized → ∃ t, core.run xs.length (presentPseudo p s) = .next t ∧
      t.trace = s.trace ++ eventsOf s (xs.flatMap bytes) ∧
      t.responses = s.responses ++ List.replicate xs.length 0x00000#20 ∧ t.imode = s.imode ∧ SameControl s t ∧
      SameFramebuffer s t) ∧
    (s.status ≠ .initialized → core.run xs.length (presentPseudo p s) =
      .next { s with responses := s.responses ++ List.replicate xs.length 0x90000#20 }) := by
  rw [presentPseudo, hp]
  exact ⟨fun hs => ⟨_, run_prints_of_initialized hprints hempty hs xs, rfl, rfl, rfl, ⟨rfl, rfl, rfl, rfl, rfl⟩,
    fun _ => rfl⟩, fun hs => run_prints_of_ne hprints hempty hs xs⟩

end Sys2Proof.Machine

open Sys2Proof Sys2Proof.Machine

/-- Settles O58: each form expands to the PRTC commands of `cs`, and each of these prints one byte. -/
theorem textRunSendsEachCode : Obligations.TextRunSendsEachCode := by
  intro cs p s hempty hform
  have hp : p.expand = cs.map .prtc := by
    rcases hform with rfl | ⟨hzero, rfl | ⟨rest, rfl⟩⟩
    · rfl
    · exact expand_prttxtz_self hzero
    · exact expand_prttxtz_append hzero rest
  rw [List.map_eq_flatMap]
  exact textRun prints_prtc hp hempty

/-- Settles O59: each form expands to the PRTW commands of `ws`, and each of these prints two bytes. -/
theorem wideTextRunSendsEachCode : Obligations.WideTextRunSendsEachCode := by
  intro ws p s hempty hform
  have hp : p.expand = ws.map .prtw := by
    rcases hform with rfl | ⟨hzero, rfl | ⟨rest, rfl⟩⟩
    · rfl
    · exact expand_prtwtxtz_self hzero
    · exact expand_prtwtxtz_append hzero rest
  exact textRun prints_prtw hp hempty
end

section
/-! The failures of a word (60_exceptions R250 to R253): the cause of each, in the order in which they are decided, and
what the response to it says. -/

namespace Sys2Proof.Machine

/-! ### The cause of a failure -/

/-- Why a command does not complete, if it does not (60_exceptions R251, R253). -/
def failureCause (i : Instr) (s : State) : Option Cause :=
  if gated i = true ∧ s.status ≠ .initialized then some .notInitialized
  else if i = .begin ∧ ¬ requiredPinsValid s = true then some .invalidPinConfig
  else if outOfRange i = true then some .outOfRange
  else if i.wellFormed = true then none
  else some .illegalCommand

/-- Why a word fails, if it does: the decoder comes before everything else (60_exceptions R253). -/
def wordCause (w : CommandWord) (s : State) : Option Cause :=
  match decode w with
  | .ok i => failureCause i s
  | .error _ => some .illegalCommand

section
variable {w : CommandWord} {i : Instr} {s : State}

theorem wordCause_of_ok (h : decode w = .ok i) : wordCause w s = failureCause i s := by
  rw [wordCause, h]

theorem wordCause_of_error {e : DecodeError} (h : decode w = .error e) : wordCause w s = some .illegalCommand := by
  rw [wordCause, h]

/-- A command completes where none of the four conditions on a failure is met. -/
theorem completes_iff : completes i s = true ↔ ¬ (gated i = true ∧ s.status ≠ .initialized) ∧
    ¬ (i = .begin ∧ ¬ requiredPinsValid s = true) ∧ ¬ outOfRange i = true ∧ i.wellFormed = true := by
  simp only [completes, Bool.and_eq_true, Bool.or_eq_true, Bool.not_eq_true', decide_eq_true_eq]
  grind

theorem failureCause_eq_none_iff : failureCause i s = none ↔ completes i s = true := by
  rw [completes_iff, failureCause]
  split_ifs with hgate hbegin hrange hwf
  · exact iff_of_false nofun fun ⟨h, _⟩ => h hgate
  · exact iff_of_false nofun fun ⟨_, h, _⟩ => h hbegin
  · exact iff_of_false nofun fun ⟨_, _, h, _⟩ => h hrange
  · exact iff_of_true rfl ⟨hgate, hbegin, hrange, hwf⟩
  · exact iff_of_false nofun fun ⟨_, _, _, h⟩ => hwf h

theorem eq_begin_of_failureCause (h : failureCause i s = some .invalidPinConfig) : i = .begin := by
  unfold failureCause at h
  split_ifs at h with hgate hbegin <;> cases h
  exact hbegin.1

theorem decode_of_wordCause (h : wordCause w s = some .invalidPinConfig) : decode w = .ok .begin := by
  cases hd : decode w with
  | ok i => rw [eq_begin_of_failureCause ((wordCause_of_ok hd).symm.trans h)]
  | error e => exact absurd ((wordCause_of_error hd).symm.trans h) nofun

/-- Only a SETPIN can be ill-formed (30_encoding R85). -/
theorem exec_of_not_wellFormed (h : ¬ i.wellFormed = true) : exec i s = raiseFail .illegalCommand s := by
  cases i with
  | setpin slot id => exact exec_setpin_of_lt id (by simpa [Instr.wellFormed] using h)
  | _ => exact absurd rfl h

theorem gated_of_outOfRange (h : outOfRange i = true) : gated i = true := by
  cases i with
  | setpin | begin | getst => exact absurd h nofun
  | _ => rfl

theorem exec_of_failureCause {c : Cause} (h : failureCause i s = some c) : exec i s = raiseFail c s := by
  unfold failureCause at h
  split_ifs at h with hgate hbegin hrange hwf <;> cases h
  · exact exec_of_gated hgate.1 hgate.2
  · obtain ⟨rfl, hpins⟩ := hbegin
    exact exec_begin_of_not_valid hpins
  · exact exec_of_outOfRange (by simpa [gated_of_outOfRange hrange] using hgate) hrange
  · exact exec_of_not_wellFormed hwf

end

/-! ### The answer to a command and to a word -/

/-- What a command or a word answers: the failure of its cause, or without one a success with one response. -/
inductive Answers (s : State) : Option Cause → Result → Prop
  | failure (c : Cause) : Answers s (some c) (raiseFail c s)
  | success {u : State} (v : Page) (h : u.responses = s.responses) : Answers s none (respondOk v u)

theorem Writes.responses_eq {i : Instr} {s u : State} (h : Writes s i u) : u.responses = s.responses := by
  cases h <;> rfl

theorem exec_answers (i : Instr) (s : State) : Answers s (failureCause i s) (exec i s) := by
  cases hcause : failureCause i s with
  | some c =>
    rw [exec_of_failureCause hcause]
    exact .failure c
  | none =>
    obtain ⟨t, ht⟩ := exec_next i s
    rw [ht]
    rcases exec_ran ht with ⟨hnot, -⟩ | ⟨v, u, rfl, hw⟩
    · exact absurd (failureCause_eq_none_iff.mp hcause) (by simp [hnot])
    · exact .success v hw.responses_eq

theorem performWord_answers (w : CommandWord) (s : State) : Answers s (wordCause w s) (performWord w s) := by
  cases hd : decode w with
  | ok i =>
    rw [wordCause_of_ok hd, performWord_of_ok s hd]
    exact exec_answers i s
  | error e =>
    rw [wordCause_of_error hd, performWord_of_error s hd]
    exact .failure .illegalCommand

/-! ### The fields of the response -/

/-- CAUSE as the response gives it: 0 without a failure, else the cause's code (60_exceptions R251). -/
def causeField (cause : Option Cause) : BitVec 3 := cause.elim 0#3 Cause.code

theorem isSome_eq_causeField_ne (cause : Option Cause) : cause.isSome = decide (causeField cause ≠ 0#3) := by
  rcases cause with _ | c
  · rfl
  · cases c <;> rfl

theorem eq_invalidPinConfig_of_causeField {cause : Option Cause} (h : causeField cause = 2#3) :
    cause = some .invalidPinConfig := by
  cases cause with
  | none => exact absurd h (by decide)
  | some c =>
    cases c with
    | invalidPinConfig => rfl
    | _ => exact absurd h (by decide)

/-- Every answer adds one response, with the fields of its cause; a failure does nothing else (60_exceptions R250). -/
theorem Answers.response {s : State} {cause : Option Cause} {res : Result} (h : Answers s cause res) :
    ∃ (t : State) (r : ResponseWord), res = .next t ∧ t.responses = s.responses ++ [r] ∧
      fieldFAIL r = cause.isSome ∧ fieldCAUSE r = causeField cause ∧
      (fieldFAIL r = true → fieldVALUE r = 0#16 ∧ res = onlyResponse s r) := by
  cases h with
  | failure c =>
    exact ⟨_, failWord c, rfl, rfl, fieldFAIL_failWord c, fieldCAUSE_failWord c, fun _ => ⟨fieldVALUE_failWord c, rfl⟩⟩
  | success v h =>
    exact ⟨_, okWord v, rfl, by rw [respond_responses, h], fieldFAIL_okWord v, fieldCAUSE_okWord v,
      fun hfail => absurd hfail (by simp)⟩

/-- An answer that adds a response alone gives its cause in that response. -/
theorem Answers.causeField_eq {s : State} {cause : Option Cause} {r : ResponseWord}
    (h : Answers s cause (onlyResponse s r)) : causeField cause = fieldCAUSE r := by
  obtain ⟨t, r', ht, hr, -, hcause, -⟩ := h.response
  cases ht
  have hword : r = r' := by simpa using hr
  rw [hword, hcause]

/-- R251's table, read in the order of R253, gives CAUSE for every command that a word can spell. -/
theorem causeField_failureCause {i : Instr} (s : State) (h : i.wellFormed = true) :
    causeField (failureCause i s) =
      if gated i = true ∧ s.status ≠ .initialized then 1#3
      else if i = .begin ∧ (∃ k : Fin 11, k.val < 10 ∧ 0x80 ≤ (pin s k).toNat) then 2#3
      else if outOfRange i = true then 3#3 else 0#3 := by
  have hpins : ¬ requiredPinsValid s = true ↔ ∃ k : Fin 11, k.val < 10 ∧ 0x80 ≤ (pin s k).toNat := by
    simp only [requiredPinsValid_iff_toNat_le, not_forall, not_le, exists_prop]
    rfl
  simp only [failureCause, hpins, h, if_true, apply_ite causeField]
  rfl

end Sys2Proof.Machine

open Sys2Proof Sys2Proof.Machine

/-- Settles O13: only a failure answers FAIL = 1, and a failure adds its response alone. -/
theorem failedCommandHasNoEffect : Obligations.FailedCommandHasNoEffect := by
  intro w s
  obtain ⟨t, r, ht, hr, -, -, hfail⟩ := (performWord_answers w s).response
  exact ⟨t, r, ht, hr, hfail⟩

/-- Settles O15: `performWord` asks the decoder first, each failure behind it has its rule, and `failureCause` is
InvalidPinConfig for BEGIN alone. -/
theorem failurePriority : Obligations.FailurePriority := by
  intro w s
  refine ⟨fun e he => performWord_of_error s he, fun i hi hg hs => (performWord_of_ok s hi).trans (exec_of_gated hg hs),
    fun i hi hs hout => (performWord_of_ok s hi).trans (exec_of_outOfRange hs hout), fun h => ?_⟩
  have hanswer : Answers s (wordCause w s) (onlyResponse s 0xA0000#20) := h ▸ performWord_answers w s
  have hcause : causeField (wordCause w s) = 2#3 := hanswer.causeField_eq
  exact decode_of_wordCause (eq_invalidPinConfig_of_causeField hcause)

/-- Settles O16: `wordCause` is the cause of the answer, and `causeField` its code. -/
theorem causeOfEveryResponse : Obligations.CauseOfEveryResponse := by
  intro w s
  obtain ⟨t, r, ht, hr, hfail, hcause, honly⟩ := (performWord_answers w s).response
  refine ⟨t, r, ht, hr, ?_, fun e he => ?_, fun i hi => ?_, fun h => (honly h).2⟩
  · rw [hfail, hcause, isSome_eq_causeField_ne]
  · rw [hcause, wordCause_of_error he]
    rfl
  · rw [hcause, wordCause_of_ok hi, causeField_failureCause s (encodeOfDecode w i hi).2]

/-- Settles O17: a command answers with FAIL = 0 exactly where it has no `failureCause`, which is where it completes. -/
theorem successExactly : Obligations.SuccessExactly := by
  intro i s
  obtain ⟨t, r, ht, hr, hfail, hcause, -⟩ := (exec_answers i s).response
  have hnone : fieldFAIL r = false ↔ failureCause i s = none := by
    rw [hfail, Option.isSome_eq_false_iff, Option.isNone_iff_eq_none]
  refine ⟨t, r, ht, hr, hnone.trans failureCause_eq_none_iff, fun h => ?_⟩
  rw [hcause, hnone.mp h]
  rfl
end

section
/-! What the commands cost on the bus (70_reset R302): how many bytes each sends when it succeeds, and the sum of the
sleeps in their events. -/

namespace Sys2Proof.Machine

/-! ### The least time of a bus-byte trace -/

/-- Two settle waits and the post delay are all that takes time in a bus byte (43_bus R180). -/
theorem minimumMicros_busEvents (s : State) (b : BusByte) :
    minimumMicros s.cfg (busEvents s b) = 2 * s.cfg.tSettle + b.postDelay.micros s.cfg := by
  simp only [minimumMicros, busEvents, List.map_append, List.map_cons, List.map_nil, List.map_map, List.sum_append,
    List.sum_cons, List.sum_nil, Function.comp_def, Event.micros, Delay.micros, List.map_const', List.sum_replicate,
    smul_zero]
  omega

/-- Every byte of a trace takes its two settle waits and its own post delay. -/
theorem minimumMicros_eventsOf (s : State) (bs : List BusByte) :
    minimumMicros s.cfg (eventsOf s bs) =
      2 * bs.length * s.cfg.tSettle + (bs.map fun b => b.postDelay.micros s.cfg).sum := by
  induction bs with
  | nil => rw [List.length_nil, Nat.mul_zero, Nat.zero_mul]; rfl
  | cons b bs ih =>
    have hsplit : minimumMicros s.cfg (eventsOf s (b :: bs)) =
        minimumMicros s.cfg (busEvents s b) + minimumMicros s.cfg (eventsOf s bs) := by
      simp only [minimumMicros, eventsOf, List.flatMap_cons, List.map_append, List.sum_append]
    rw [hsplit, ih, minimumMicros_busEvents, List.length_cons, List.map_cons, List.sum_cons]
    ring

theorem sum_micros_of_allShort {bs : List BusByte} (h : AllShort bs) (cfg : Config) :
    (bs.map fun b => b.postDelay.micros cfg).sum = bs.length * cfg.tCmdShort := by
  have hshort : ∀ d ∈ bs.map (fun b => b.postDelay.micros cfg), d = cfg.tCmdShort := by
    rw [List.forall_mem_map]
    intro b hb
    rw [h b hb]
    rfl
  rw [List.sum_eq_card_nsmul _ _ hshort, List.length_map, smul_eq_mul]

/-! ### How many bytes a command sends -/

theorem length_cursorBytes (cfg : Config) (wideCx : BitVec 4) (wideCy : BitVec 2) :
    (cursorBytes cfg wideCx wideCy).length = wideCx.toNat + 1 := by
  rw [cursorBytes, List.length_cons, List.length_replicate]

theorem length_spaceBytes (cfg : Config) (cx : Byte) : (spaceBytes cfg (cx.getLsbD 0)).length = cx.toNat % 2 := by
  rw [spaceBytes_getLsbD_zero]
  split
  · next h => exact h.symm
  · next h => exact (Nat.mod_two_ne_one.mp h).symm

theorem length_fillBytes (row : List BusByte) : (fillBytes row).length = 2 * (1 + row.length) := by
  simp only [fillBytes, List.length_append, List.length_cons]
  omega

theorem outOfRange_of_completes {i : Instr} {s : State} (hc : completes i s = true) : outOfRange i = false :=
  eq_false_of_ne_true fun h => absurd hc (by simp [completes_of_outOfRange s h])

/-- A success that sent `n` bus bytes. -/
def SendsBytes (n : Nat) (s : State) (r : Result) : Prop :=
  ∃ t bs, r = .next t ∧ t.trace = s.trace ++ eventsOf s bs ∧ bs.length = n

theorem exec_pntpg_sendsBytes {page cy : Byte} {s : State} (hs : s.status = .initialized) (hp : page.toNat < 8)
    (hy : cy.toNat < 64) : SendsBytes 5 s (exec (.pntpg page cy) s) :=
  ⟨_, _, exec_pntpg_of_inRange hs hp hy, painted_trace _ s, rfl⟩

/-- Each command that completes, with the trace its own lemma gives it (70_reset R302). -/
theorem exec_sendsBytes {i : Instr} {s : State} (hc : completes i s = true) (hb : i ≠ .begin) :
    SendsBytes (busByteCount s.cfg i) s (exec i s) := by
  have hrange : outOfRange i = false := outOfRange_of_completes hc
  have hs (hg : gated i = true) : s.status = .initialized := status_of_completes hc hg
  cases i with
  | pntpg page cy =>
    have hin : ¬ (8 ≤ page.toNat ∨ 64 ≤ cy.toNat) := of_decide_eq_false hrange
    exact exec_pntpg_sendsBytes (hs rfl) (by omega) (by omega)
  | pntpx cx cy =>
    have hin : ¬ (128 ≤ cx.toNat ∨ 64 ≤ cy.toNat) := of_decide_eq_false hrange
    have hpage : (BitVec.ofNat 8 (cx.toNat / 16)).toNat = cx.toNat / 16 := byte_toNat_of_lt (by omega)
    exact exec_pntpg_sendsBytes (hs rfl) (by omega) (by omega)
  | pntall =>
    refine ⟨_, _, exec_pntall_of_initialized s (hs rfl), painted_trace _ s, ?_⟩
    rw [List.length_cons, length_allRowsBytes]
    rfl
  | settc cx cy =>
    have hin : ¬ (16 ≤ cx.toNat ∨ 8 ≤ cy.toNat) := of_decide_eq_false hrange
    obtain ⟨hcol, -⟩ := textFold_toNat (cx := cx.toNat / 2) (cy := cy.toNat) (by omega) (by omega)
    refine ⟨_, _, exec_settc_of_inRange (hs rfl) (by omega) (by omega), sentInBasic_trace _ s, ?_⟩
    rw [List.length_cons, List.length_append, length_cursorBytes, length_spaceBytes, hcol, busByteCount]
    omega
  | setwtc cx cy =>
    have hin : ¬ (8 ≤ cx.toNat ∨ 8 ≤ cy.toNat) := of_decide_eq_false hrange
    obtain ⟨hcol, -⟩ := textFold_toNat (cx := cx.toNat) (cy := cy.toNat) (by omega) (by omega)
    refine ⟨_, _, exec_setwtc_of_inRange (hs rfl) (by omega) (by omega), sentInBasic_trace _ s, ?_⟩
    rw [List.length_cons, length_cursorBytes, hcol, busByteCount]
    omega
  | prtc c => exact ⟨_, _, exec_prtc_of_initialized (hs rfl) c, printed_trace _ s, rfl⟩
  | prtw w => exact ⟨_, _, exec_prtw_of_initialized (hs rfl) w, printed_trace _ s, rfl⟩
  | fillc c =>
    refine ⟨_, _, exec_fillc_of_initialized (hs rfl) c, sentInBasic_trace _ s, ?_⟩
    rw [List.length_cons, length_fillBytes, List.length_replicate, busByteCount, Nat.add_comm]
  | fillw w =>
    refine ⟨_, _, exec_fillw_of_initialized (hs rfl) w, sentInBasic_trace _ s, ?_⟩
    rw [List.length_cons, length_fillBytes, length_wideRow, busByteCount, Nat.add_comm]
  | _ =>
    obtain ⟨t, ht⟩ := exec_next _ s
    obtain ⟨-, -, -, -, -, -, -, htrace⟩ := whoWritesWhat _ s t ht
    exact ⟨t, [], ht, (htrace rfl hb nofun nofun).trans (List.append_nil _).symm, rfl⟩

theorem fillNarrow_eq_two_mul_fillWide {c : Config} (h : c.wf = true) : c.fillNarrow = 2 * c.fillWide := by
  simp only [Config.wf, Bool.and_eq_true, decide_eq_true_eq] at h
  obtain ⟨⟨⟨-, hfill⟩, -⟩, -⟩ := h
  exact hfill

/-- No command sends more bytes than PNTALL, where a row of narrow characters has 32 of them (70_reset R300). -/
theorem busByteCount_le {c : Config} (h : c.wf = true) (hnarrow : c.fillNarrow = 32) (i : Instr) :
    busByteCount c i ≤ 1153 := by
  have hfill : c.fillNarrow = 2 * c.fillWide := fillNarrow_eq_two_mul_fillWide h
  cases i with
  | settc cx cy | setwtc cx cy =>
    have hcx : cx.toNat < 256 := cx.isLt
    simp only [busByteCount]
    split <;> omega
  | _ => simp only [busByteCount]; omega

end Sys2Proof.Machine

open Sys2Proof Sys2Proof.Machine

/-- Settles O45: `exec_sendsBytes` counts the bytes, and O44 says which delay each of them has. -/
theorem busByteCountsAndDurations : Obligations.BusByteCountsAndDurations := by
  intro i s hwf hc hb
  obtain ⟨t, sent, ht, htrace, hcount⟩ := exec_sendsBytes hc hb
  obtain ⟨t', ms, bs, ht', htrace', hnone, hsome, -, hshort⟩ := longDelayOnlyAfterModeSelect i s hc hb
  cases ht.symm.trans ht'
  have hevents : eventsOf s sent = eventsOf s (ms ++ bs) := List.append_cancel_left (htrace.symm.trans htrace')
  have hlength : (ms ++ bs).length = busByteCount s.cfg i := by
    have hlengths := congrArg List.length hevents
    rw [length_eventsOf hwf, length_eventsOf hwf] at hlengths
    omega
  refine ⟨t, eventsOf s (ms ++ bs), ht, htrace', by rw [length_eventsOf hwf, hlength], ?_,
    fun hnarrow => busByteCount_le hwf hnarrow i⟩
  rw [minimumMicros_eventsOf, hlength, List.map_append, List.sum_append, sum_micros_of_allShort hshort]
  cases hm : selectsMode i with
  | none =>
    rw [hnone hm, List.nil_append] at hlength
    rw [hnone hm, if_pos rfl, hlength, List.map_nil, List.sum_nil, Nat.zero_add]
  | some m =>
    rw [hsome m hm, List.length_append, List.length_singleton] at hlength
    rw [hsome m hm, if_neg nofun, ← hlength, Nat.add_sub_cancel_left, List.map_singleton, List.sum_singleton,
      modeSelect_postDelay, Nat.add_comm (Delay.micros _ _)]
    rfl
end

section
/-! Whole runs, the boot sequence, and what reset leaves (70_reset R303, R281, R280). -/

namespace Sys2Proof.Machine

/-! ### A run that carries out everything presented -/

/-- A run with one step for each word presented, from a state given with what the host presents to it. -/
theorem run_commands (ws : List CommandWord) (s : State) (hws : s.commands = ws) :
    ∃ (t : State) (rs : List ResponseWord) (es : List Event), core.run ws.length s = .next t ∧ t.commands = [] ∧
      t.responses = s.responses ++ rs ∧ rs.length = ws.length ∧ t.trace = s.trace ++ es := by
  induction ws generalizing s with
  | nil => exact ⟨s, [], [], rfl, hws, (List.append_nil _).symm, rfl, (List.append_nil _).symm⟩
  | cons w rest ih =>
    obtain ⟨u, r, es, hu, hr, hes, hrest, -⟩ := oneResponsePerCommand s w rest hws
    obtain ⟨t, rs, es', ht, hempty, hrs, hlength, hes'⟩ := ih u hrest
    refine ⟨t, r :: rs, es ++ es', (run_succ_of_step hu).trans ht, hempty, ?_, congrArg Nat.succ hlength, ?_⟩
    · rw [hrs, hr, List.append_assoc, List.singleton_append]
    · rw [hes', hes, List.append_assoc]

/-! ### The pin slots of CONFIG -/

theorem requiredSlot_injective : Function.Injective requiredSlot := fun _ _ h => Fin.ext (Fin.mk.inj h)

/-- Slot 10 is not one of the slots that BEGIN requires (10_state R22). -/
theorem ten_ne_requiredSlot (k : Fin 10) : 10 ≠ requiredSlot k :=
  (Fin.ne_of_lt (show requiredSlot k < 10 from k.isLt)).symm

/-- What a SETPIN of a required slot leaves (40_config R110). -/
def slotSet (k : Fin 10) (id : Byte) (s : State) : State :=
  respond (okWord 0) (setIMode .unknown (setStatus .uninitialized (setPin (requiredSlot k) id s)))

theorem pin_slotSet (k : Fin 10) (j : Fin 11) (id : Byte) (s : State) :
    pin (slotSet k id s) j = if j = requiredSlot k then id else pin s j := pin_setPin _ j id s

section
variable (ids : Fin 10 → Byte)

/-- The SETPIN that gives a required slot its identifier. -/
def setSlot (k : Fin 10) : Instr := .setpin (BitVec.ofNat 8 k.val) (ids k)

/-- What the SETPINs of the slots `ks`, one after another, leave. -/
def slotsSet : List (Fin 10) → State → State
  | [], s => s
  | k :: ks, s => slotsSet ks (slotSet k (ids k) s)

theorem slotNumber_toNat (k : Fin 10) : (BitVec.ofNat 8 k.val).toNat = k.val := byte_toNat_of_lt (by omega)

theorem slotNumber_le (k : Fin 10) : (BitVec.ofNat 8 k.val).toNat ≤ 10 := by
  rw [slotNumber_toNat]
  omega

theorem exec_setSlot (k : Fin 10) (s : State) : exec (setSlot ids k) s = .next (slotSet k (ids k) s) := by
  rw [setSlot, exec_setpin_of_le _ (slotNumber_le k)]
  simp only [slotSet, requiredSlot, slotNumber_toNat]

theorem setSlot_wellFormed (k : Fin 10) : (setSlot ids k).wellFormed = true := decide_eq_true (slotNumber_le k)

/-- The first steps of a run carry out the SETPINs presented first. -/
theorem run_setSlots {s : State} (hempty : s.commands = []) (ks : List (Fin 10)) (is : List Instr) (n : Nat) :
    core.run (n + ks.length) (present ((ks.map (setSlot ids) ++ is).map encode) s) =
      core.run n (present (is.map encode) (slotsSet ids ks s)) := by
  induction ks generalizing s with
  | nil => rfl
  | cons k ks ih =>
    have hfirst : exec (setSlot ids k) (present ((ks.map (setSlot ids) ++ is).map encode) s) =
      .next (present ((ks.map (setSlot ids) ++ is).map encode) (slotSet k (ids k) s)) := exec_setSlot ids k _
    exact (run_present_cons hempty (setSlot_wellFormed ids k) hfirst).trans
      (ih (s := slotSet k (ids k) s) hempty)

/-- A slot holds its new identifier once its SETPIN is among those carried out. -/
theorem pin_slotsSet (ks : List (Fin 10)) (k : Fin 10) (s : State) :
    pin (slotsSet ids ks s) (requiredSlot k) = if k ∈ ks then ids k else pin s (requiredSlot k) := by
  induction ks generalizing s with
  | nil => rfl
  | cons k' ks ih =>
    rw [slotsSet, ih, pin_slotSet]
    by_cases hk : k = k'
    · subst hk
      simp only [if_true, ite_self, List.mem_cons_self]
    · simp only [requiredSlot_injective.eq_iff, hk, if_false, List.mem_cons, false_or]

/-- All that the SETPINs change beside their slots is `status`, `imode` and the responses (70_reset R295). -/
theorem slotsSet_frame (ks : List (Fin 10)) (s : State) :
    (slotsSet ids ks s).cfg = s.cfg ∧ pin (slotsSet ids ks s) 10 = pin s 10 ∧
      (slotsSet ids ks s).gfxEn = s.gfxEn ∧ (slotsSet ids ks s).fb = s.fb ∧ (slotsSet ids ks s).trace = s.trace ∧
      (slotsSet ids ks s).responses = s.responses ++ List.replicate ks.length 0x00000#20 ∧
      (slotsSet ids ks s).commands = s.commands := by
  induction ks generalizing s with
  | nil => exact ⟨rfl, rfl, rfl, rfl, rfl, (List.append_nil _).symm, rfl⟩
  | cons k ks ih =>
    obtain ⟨hcfg, hspare, hgfx, hfb, htrace, hresponses, hcommands⟩ := ih (slotSet k (ids k) s)
    refine ⟨hcfg, hspare.trans ?_, hgfx, hfb, htrace, hresponses.trans (List.append_assoc ..), hcommands⟩
    rw [pin_slotSet, if_neg (ten_ne_requiredSlot k)]

/-! ### CONFIG, then BEGIN -/

/-- What the ten SETPINs of CONFIG leave. -/
def configured (s : State) : State := slotsSet ids (List.finRange 10) s

theorem pin_configured (k : Fin 10) (s : State) : pin (configured ids s) (requiredSlot k) = ids k := by
  rw [configured, pin_slotsSet, if_pos (List.mem_finRange k)]

/-- What BEGIN leaves after them. -/
def booted (s : State) : State :=
  respond (okWord 0) (setStatus .initialized (emit (beginEvents (configured ids s)) (configured ids s)))

/-- Ten valid identifiers are in place when BEGIN checks them, so all eleven commands succeed (70_reset R281). -/
theorem run_boot {s : State} (hempty : s.commands = []) (hvalid : ∀ k, (ids k).toNat ≤ 0x7F) :
    core.run 11 (present (((List.finRange 10).map (setSlot ids) ++ [Instr.begin]).map encode) s) =
      .next (booted ids s) := by
  obtain ⟨-, -, -, -, -, -, hcommands⟩ := slotsSet_frame ids (List.finRange 10) s
  have hpins : requiredPinsValid (configured ids s) = true := by
    simpa only [requiredPinsValid_iff, pin_configured, pinValid_iff_toNat_le] using hvalid
  have hbegin : exec .begin (present [] (configured ids s)) = .next (booted ids s) := by
    rw [present, List.append_nil]
    exact exec_begin_of_valid hpins
  refine (run_setSlots ids hempty (List.finRange 10) [.begin] 1).trans ?_
  exact run_present_cons (hcommands.trans hempty) rfl hbegin

end

/-- The identifiers of a CONFIG, by slot (10_state R21). -/
def configIds (d0 d1 d2 d3 d4 d5 d6 d7 rs e : Byte) : Fin 10 → Byte := ![d0, d1, d2, d3, d4, d5, d6, d7, rs, e]

theorem expand_config (d0 d1 d2 d3 d4 d5 d6 d7 rs e : Byte) : (Pseudo.config d0 d1 d2 d3 d4 d5 d6 d7 rs e).expand =
    (List.finRange 10).map (setSlot (configIds d0 d1 d2 d3 d4 d5 d6 d7 rs e)) := rfl

theorem map_configIds (d0 d1 d2 d3 d4 d5 d6 d7 rs e : Byte) :
    (List.finRange 10).map (configIds d0 d1 d2 d3 d4 d5 d6 d7 rs e) = [d0, d1, d2, d3, d4, d5, d6, d7, rs, e] := rfl

theorem present_present (ws ws' : List CommandWord) (s : State) :
    present ws' (present ws s) = present (ws ++ ws') s := by
  simp only [present, List.append_assoc]

end Sys2Proof.Machine

open Sys2Proof Sys2Proof.Machine

/-- Settles O9: `run_commands` at the words that the state has. -/
theorem runEndsWithOneResponseEach : Obligations.RunEndsWithOneResponseEach :=
  fun s => run_commands s.commands s rfl

/-- Settles O60: the run ends in `booted`; its slots are `pin_configured`, its other elements those of `slotsSet_frame`,
and its events BEGIN's, in the order of the parameters. -/
theorem bootSequenceInitializes : Obligations.BootSequenceInitializes := by
  intro d0 d1 d2 d3 d4 d5 d6 d7 rs e s hempty hwf hvalid
  rw [← map_configIds] at hvalid ⊢
  rw [presentPseudo, present_present, expand_config]
  generalize configIds d0 d1 d2 d3 d4 d5 d6 d7 rs e = ids at hvalid ⊢
  have hids (k : Fin 10) : (ids k).toNat ≤ 0x7F := hvalid _ (List.mem_map_of_mem (List.mem_finRange k))
  obtain ⟨hcfg, hspare, hgfx, hfb, htrace, hresponses, hcommands⟩ := slotsSet_frame ids (List.finRange 10) s
  have hpins : (fun k => pin (configured ids s) (requiredSlot k)) = ids := funext fun k => pin_configured ids k s
  have hwf' : (configured ids s).cfg.wf = true := (congrArg Config.wf hcfg).trans hwf
  refine ⟨booted ids s, beginEvents (configured ids s), run_boot ids hempty hids, congrArg (List.map · _) hpins,
    hspare, rfl, hcommands.trans hempty, congrArg (· ++ _) htrace, ?_, rfl, hcfg, ?_, hgfx, sameFramebuffer_of_fb_eq hfb⟩
  · rw [List.map_map]
    refine (beginEvents_perm hwf').trans (.of_eq (List.map_congr_left fun k _ => ?_))
    rw [pin_configured]
    rfl
  · exact (congrArg (· ++ [okWord 0]) hresponses).trans (List.append_assoc ..)

/-- Settles O10: the fields of `State.resetWith`, of which `State.reset` is an application. -/
theorem resetLeaves : Obligations.ResetLeaves :=
  ⟨fun _ _ => ⟨rfl, fun k => Vector.getElem_replicate k.isLt, rfl, rfl, rfl, rfl⟩, _, _, rfl⟩
end
